-- ==== Sys2Proof/Word.lean ====
section
/-! DEFINITION. The widths the spec gives the part's values (00_scope.md, Terms and Row encoding). -/

namespace Sys2Proof

abbrev Byte := BitVec 8

/-- A payload word of the row encoding (00_scope.md, Row encoding). -/
abbrev Word := BitVec 32

/-- One beat of the memory port, 8 bytes, little-endian (00_scope.md, Terms). -/
abbrev Beat := BitVec 64

/-- A lane, 0 to 15 (00_scope.md, Terms). -/
abbrev Lane := Fin 16

/-- A tag, 0 to 15 (00_scope.md, Terms). -/
abbrev Tag := BitVec 4

/-- A budget class, 0 to 7 (R106). -/
abbrev ClassNo := Fin 8

/-- A memory transaction id, 0 to 15 (R122). -/
abbrev MemId := Fin 16

/-- A walk slot, 0 or 1 (R76). -/
abbrev WalkNo := Fin 2

/-- A memory address, 36 bits (00_scope.md, Terms). -/
abbrev MemAddr := BitVec 36

end Sys2Proof
end

