-- ==== Sys2Proof/Config.lean ====
section
/-! DEFINITION. What is fixed for every JG16 (00_scope.md, Capacities; R167), and the free values of what the spec leaves open. -/

namespace Sys2Proof.Config

/-- Request slots, shared by all lanes (R22). -/
def requestSlots : Nat := 64
/-- Places of the notice queue (R145). -/
def noticePlaces : Nat := 4
/-- Places of the refusal queue (R177). -/
def refusalPlaces : Nat := 16
/-- Records of the fault log (R141). -/
def logRecords : Nat := 8
/-- Entries of the translation cache (R70). -/
def cacheEntries : Nat := 32
/-- Bytes of a staging unit (R86). -/
def unitBytes : Nat := 64
/-- Confirm time: 100 ms in µs (R156). -/
def confirmTime : Nat := 100000
/-- Consecutive good markers that bring the link UP (R173). -/
def goodMarkers : Nat := 16
/-- Consecutive damaged markers that take the link DOWN (R173). -/
def damagedMarkers : Nat := 3
/-- The value at which the window count stops (R108). -/
def windowCountMax : Nat := 4294967295

/-- FREE VALUE (log 11, 12, 14): a byte the spec gives no value: a staging byte no fill has written, a write beat's byte at a
clear mask position. Applied to `State.freeCount` so that each use is a fresh value. -/
opaque freeByte : Nat → BitVec 8

/-- FREE VALUE (log 14): the beat of a walk response that brought none. -/
opaque freeBeat : Nat → BitVec 64

/-- FREE VALUE (log 13): the tag byte of a CREDIT or NOTICE header, which no rule gives. -/
opaque freeTag : Nat → BitVec 4

end Sys2Proof.Config
end

