-- ==== Sys2Proof/Syntax.lean ====
section
/-! DEFINITION. The commands of the block: one constructor of `Instr` for each row of spec/opcode_table.json. -/

namespace Sys2Proof

/-- What the receiver found between two delimiters (10.2): the bytes, and whether the end delimiter came before a marker
or a new start delimiter (R175, check 1). -/
structure Frame where
  bytes : List Byte
  ended : Bool
deriving DecidableEq, Repr

/-- The status of a memory response (R121). -/
inductive MemStatus where
  | ok
  | corrected
  | failed
  | noTarget
deriving DecidableEq, Repr

/-- The commands. A parcel command is the completed reception of a parcel that passed R175 (R176); its `lane` is the header's
lane byte as received, of which the low four bits count. `payload` is the payload as words of the row encoding (R155), `words`
what follows the table id and the row in a LOAD_ROW payload (R166). -/
inductive Instr where
  /-- R154: RST_N applied and released; the MGR_LANE straps as sampled. -/
  | lineReset (straps : BitVec 4)
  | signalPresent
  | goodMarker
  | damagedMarker
  | lossOfSignal
  /-- R175: a frame that fails one of the two receive checks. -/
  | parcelDropped (frame : Frame)
  | join (lane : Byte) (tag : Tag) (identifier : BitVec 64)
  | leave (lane : Byte) (tag : Tag) (number : Byte)
  | read (lane : Byte) (tag : Tag) (number : Byte) (address : BitVec 32) (length : BitVec 16)
  | write (lane : Byte) (tag : Tag) (number : Byte) (address : BitVec 32) (length : BitVec 16) (data : List Byte)
  | claim (lane : Byte) (tag : Tag)
  | confirm (lane : Byte) (tag : Tag)
  | confirmTimerExpiry
  | release (lane : Byte) (tag : Tag)
  | handover (lane : Byte) (tag : Tag) (payload : List Word)
  | readRow (lane : Byte) (tag : Tag) (payload : List Word)
  | loadRow (lane : Byte) (tag : Tag) (payload : List Word)
  | loadRowPort (lane : Byte) (tag : Tag) (row : Word) (words : List Word)
  | loadRowAgents (lane : Byte) (tag : Tag) (row : Word) (words : List Word)
  | loadRowWindows (lane : Byte) (tag : Tag) (row : Word) (words : List Word)
  | loadRowAreas (lane : Byte) (tag : Tag) (row : Word) (words : List Word)
  | loadRowClasses (lane : Byte) (tag : Tag) (row : Word) (words : List Word)
  | loadRowRoutes (lane : Byte) (tag : Tag) (row : Word) (words : List Word)
  | commit (lane : Byte) (tag : Tag)
  | invalidate (lane : Byte) (tag : Tag) (payload : List Word)
  | sessionSuspend (lane : Byte) (tag : Tag) (payload : List Word)
  | sessionResume (lane : Byte) (tag : Tag) (payload : List Word)
  | sessionReset (lane : Byte) (tag : Tag) (payload : List Word)
  | throttleStart (lane : Byte) (tag : Tag) (payload : List Word)
  | throttleRelease (lane : Byte) (tag : Tag) (payload : List Word)
  | readFaults (lane : Byte) (tag : Tag) (payload : List Word)
  | clearFaults (lane : Byte) (tag : Tag) (payload : List Word)
  | lock (lane : Byte) (tag : Tag)
  | restart (lane : Byte) (tag : Tag)
  | status (lane : Byte) (tag : Tag)
  /-- R155, step 6: a MGMT parcel whose operation code is none of R182. -/
  | unknownOperation (lane : Byte) (tag : Tag) (code : Byte)
  /-- R128; `ids` names the FREE ids the grant takes, in issue order: the spec leaves that choice open (R122, log 9). -/
  | grant (ids : List MemId)
  /-- R124; `beats` are the beats the response carries. -/
  | memoryResponse (id : MemId) (status : MemStatus) (beats : List Beat)
  | responseTimeout (id : MemId)
  | windowEnd (cls : ClassNo)
  | slotEnd (cls : ClassNo)
  | transmitStart
  | transmissionEnd
  | laneDetached (lane : Lane)
  | finalReplyHanded
  | restartStageMemory
  | restartFinalChange
deriving DecidableEq, Repr

end Sys2Proof
end

