-- ==== Sys2Proof/Decode.lean ====
section
/-! DEFINITION. Parcels as bytes (R175, R176, R180, R182): the receive checks, the command a received parcel stands for, the
frame of a parcel command, and `decodeTableWord` (no row of spec/opcode_table.json has bits). -/

namespace Sys2Proof

/-- The four bytes of a 32-bit value, low byte first (R180: multi-byte fields are little-endian). -/
def bytesOf32 (w : BitVec 32) : List Byte :=
  [w.extractLsb' 0 8, w.extractLsb' 8 8, w.extractLsb' 16 8, w.extractLsb' 24 8]

/-- The 32-bit value of four bytes, low byte first. -/
def word32 (b0 b1 b2 b3 : Byte) : BitVec 32 := b3 ++ b2 ++ b1 ++ b0

/-- A payload as words of the row encoding (R166); bytes beyond a whole word make none. -/
def wordsOf : List Byte → List Word
  | b0 :: b1 :: b2 :: b3 :: rest => word32 b0 b1 b2 b3 :: wordsOf rest
  | _ => []

/-- Words of the row encoding as payload bytes (R166). -/
def bytesOfWords (ws : List Word) : List Byte := ws.flatMap bytesOf32

/-- A parcel (R180): its header's fields and its payload. The length of the payload is in no header field (10.2). -/
structure Parcel where
  kind : Byte
  lane : Byte
  tag : Byte
  number : Byte
  length : BitVec 16
  status : Byte
  address : BitVec 32
  kindWord : BitVec 32
  payload : List Byte
deriving DecidableEq, Repr

/-- The 16 header bytes of a parcel (R180); byte 7 is sent as 0. -/
def Parcel.header (p : Parcel) : List Byte :=
  [p.kind, p.lane, p.tag, p.number, p.length.extractLsb' 0 8, p.length.extractLsb' 8 8, p.status, 0]
    ++ bytesOf32 p.address ++ bytesOf32 p.kindWord

/-- One byte into the CRC-32 register (R175): least significant bit first, the generator 04C1_1DB7h in its reflected
form EDB8_8320h, since the result is reflected (DEDUCED, log 24). -/
def crcByte (c : BitVec 32) (b : Byte) : BitVec 32 :=
  (List.range 8).foldl
    (fun c _ => if c.getLsbD 0 then (c >>> 1) ^^^ 0xEDB88320#32 else c >>> 1) (c ^^^ b.setWidth 32)

/-- The CRC-32 of R175: initial value FFFF_FFFFh, result complemented. -/
def crc32 (bytes : List Byte) : BitVec 32 := ~~~ (bytes.foldl crcByte 0xFFFFFFFF#32)

/-- The bytes between the delimiters (10.2): header, payload, CRC-32 low byte first (R175). -/
def Parcel.bytes (p : Parcel) : List Byte :=
  let body := p.header ++ p.payload
  body ++ bytesOf32 (crc32 body)

/-- The lane of a received header: the low four bits of the lane byte (R176). -/
def laneOf (b : Byte) : Lane := (b.extractLsb' 0 4).toFin

/-- What the receive checks make of a frame (R175): dropped at check 1, dropped at check 2 with the header's lane, or a
parcel handed on (R176). -/
inductive Received where
  | crcFault
  | formatFault (lane : Lane)
  | handed (i : Instr)
deriving DecidableEq, Repr

/-- The command of a SESSION parcel: its action word names it; one whose payload is too short or whose action is above 2 is
settled at step 6 of R155 and is spelled as SESSION_SUSPEND (log 16). -/
def sessionInstr (lane : Byte) (tag : Tag) (ws : List Word) : Instr :=
  match (ws[1]? : Option Word) with
  | some 1 => .sessionResume lane tag ws
  | some 2 => .sessionReset lane tag ws
  | _ => .sessionSuspend lane tag ws

/-- The command of a THROTTLE parcel, by its action word; anything that R115 refuses is spelled as THROTTLE_START (log 16). -/
def throttleInstr (lane : Byte) (tag : Tag) (ws : List Word) : Instr :=
  match (ws[1]? : Option Word) with
  | some 1 => .throttleRelease lane tag ws
  | _ => .throttleStart lane tag ws

/-- The command of a LOAD_ROW parcel, by its table id (R164); LOAD_ROW itself where the id names no loadable table (R165)
or the payload holds fewer than two words (R155, step 6). -/
def loadRowInstr (lane : Byte) (tag : Tag) (ws : List Word) : Instr :=
  match ws with
  | table :: row :: words =>
    match table.toNat with
    | 1 => .loadRowPort lane tag row words
    | 2 => .loadRowAgents lane tag row words
    | 3 => .loadRowWindows lane tag row words
    | 5 => .loadRowAreas lane tag row words
    | 6 => .loadRowClasses lane tag row words
    | 7 => .loadRowRoutes lane tag row words
    | _ => .loadRow lane tag ws
  | _ => .loadRow lane tag ws

/-- The command of a MGMT parcel, by its operation code (R182). -/
def mgmtInstr (lane : Byte) (tag : Tag) (code : Byte) (ws : List Word) : Instr :=
  match code.toNat with
  | 0x01 => .claim lane tag
  | 0x02 => .confirm lane tag
  | 0x03 => .release lane tag
  | 0x04 => .handover lane tag ws
  | 0x05 => .readRow lane tag ws
  | 0x06 => loadRowInstr lane tag ws
  | 0x07 => .commit lane tag
  | 0x08 => .invalidate lane tag ws
  | 0x09 => sessionInstr lane tag ws
  | 0x0A => throttleInstr lane tag ws
  | 0x0B => .readFaults lane tag ws
  | 0x0C => .clearFaults lane tag ws
  | 0x0D => .lock lane tag
  | 0x0E => .restart lane tag
  | 0x0F => .status lane tag
  | _ => .unknownOperation lane tag code

/-- Whether a payload length suits one of the five agent-to-part kinds (R175, check 2; R180). -/
def payloadSuits (kind : Byte) (n : Nat) : Bool :=
  match kind.toNat with
  | 0x01 => n == 8
  | 0x02 => n == 0
  | 0x03 => n == 0
  | 0x04 => n ≤ 256
  | 0x05 => n ≤ 256 && n % 4 == 0
  | _ => false

/-- The parcel in the bytes between two delimiters, its CRC-32 left off (R180). -/
def parcelOf (bytes : List Byte) : Parcel where
  kind := bytes.getD 0 0
  lane := bytes.getD 1 0
  tag := bytes.getD 2 0
  number := bytes.getD 3 0
  length := bytes.getD 5 0 ++ bytes.getD 4 0
  status := bytes.getD 6 0
  address := word32 (bytes.getD 8 0) (bytes.getD 9 0) (bytes.getD 10 0) (bytes.getD 11 0)
  kindWord := word32 (bytes.getD 12 0) (bytes.getD 13 0) (bytes.getD 14 0) (bytes.getD 15 0)
  payload := (bytes.drop 16).take (bytes.length - 20)

/-- The command that a parcel stands for once it has passed both receive checks (R176). -/
def parcelInstr (p : Parcel) : Instr :=
  let tag := p.tag.extractLsb' 0 4
  match p.kind.toNat with
  | 0x01 =>
    .join p.lane tag (word32 (p.payload.getD 4 0) (p.payload.getD 5 0) (p.payload.getD 6 0) (p.payload.getD 7 0)
      ++ word32 (p.payload.getD 0 0) (p.payload.getD 1 0) (p.payload.getD 2 0) (p.payload.getD 3 0))
  | 0x02 => .leave p.lane tag p.number
  | 0x03 => .read p.lane tag p.number p.address p.length
  | 0x04 => .write p.lane tag p.number p.address p.length p.payload
  | _ => mgmtInstr p.lane tag (p.length.extractLsb' 0 8) (wordsOf p.payload)

/-- Check 1 of R175: at least 20 bytes, the end delimiter seen, and the CRC-32 over header and payload as received. -/
def crcGood (f : Frame) : Bool :=
  f.ended && decide (20 ≤ f.bytes.length)
    && decide (f.bytes.drop (f.bytes.length - 4) = bytesOf32 (crc32 (f.bytes.take (f.bytes.length - 4))))

/-- The receive checks in their order (R175) and the handing on (R176). -/
def receive (f : Frame) : Received :=
  if !crcGood f then .crcFault
  else
    let p := parcelOf f.bytes
    if payloadSuits p.kind (f.bytes.length - 20) && decide (p.tag.toNat ≤ 15) then .handed (parcelInstr p)
    else .formatFault (laneOf p.lane)

/-- The parcel of an agent-to-part kind with the header fields a sender gives it (R180): the others are 0, for the number of a JOIN
and of a MGMT by the model's choice (log 35). -/
def agentParcel (kind lane : Byte) (tag : Tag) (number : Byte) (length : BitVec 16) (address : BitVec 32)
    (payload : List Byte) : Parcel where
  kind := kind
  lane := lane
  tag := tag.setWidth 8
  number := number
  length := length
  status := 0
  address := address
  kindWord := 0
  payload := payload

/-- A MGMT parcel: the operation code in byte 4 (R182), 0 in byte 5 (log 35), the operands as payload words (R155). -/
def mgmtParcel (lane : Byte) (tag : Tag) (code : Byte) (ws : List Word) : Parcel :=
  agentParcel 0x05 lane tag 0 (code.setWidth 16) 0 (bytesOfWords ws)

/-- The parcel of a command that is a parcel (R180, R182); none for the other commands. -/
def instrParcel : Instr → Option Parcel
  | .lineReset _ => none
  | .signalPresent => none
  | .goodMarker => none
  | .damagedMarker => none
  | .lossOfSignal => none
  | .parcelDropped _ => none
  | .join lane tag identifier =>
    some (agentParcel 0x01 lane tag 0 0 0
      (bytesOf32 (identifier.extractLsb' 0 32) ++ bytesOf32 (identifier.extractLsb' 32 32)))
  | .leave lane tag number => some (agentParcel 0x02 lane tag number 0 0 [])
  | .read lane tag number address length => some (agentParcel 0x03 lane tag number length address [])
  | .write lane tag number address length data => some (agentParcel 0x04 lane tag number length address data)
  | .claim lane tag => some (mgmtParcel lane tag 0x01 [])
  | .confirm lane tag => some (mgmtParcel lane tag 0x02 [])
  | .confirmTimerExpiry => none
  | .release lane tag => some (mgmtParcel lane tag 0x03 [])
  | .handover lane tag payload => some (mgmtParcel lane tag 0x04 payload)
  | .readRow lane tag payload => some (mgmtParcel lane tag 0x05 payload)
  | .loadRow lane tag payload => some (mgmtParcel lane tag 0x06 payload)
  | .loadRowPort lane tag row words => some (mgmtParcel lane tag 0x06 (1 :: row :: words))
  | .loadRowAgents lane tag row words => some (mgmtParcel lane tag 0x06 (2 :: row :: words))
  | .loadRowWindows lane tag row words => some (mgmtParcel lane tag 0x06 (3 :: row :: words))
  | .loadRowAreas lane tag row words => some (mgmtParcel lane tag 0x06 (5 :: row :: words))
  | .loadRowClasses lane tag row words => some (mgmtParcel lane tag 0x06 (6 :: row :: words))
  | .loadRowRoutes lane tag row words => some (mgmtParcel lane tag 0x06 (7 :: row :: words))
  | .commit lane tag => some (mgmtParcel lane tag 0x07 [])
  | .invalidate lane tag payload => some (mgmtParcel lane tag 0x08 payload)
  | .sessionSuspend lane tag payload => some (mgmtParcel lane tag 0x09 payload)
  | .sessionResume lane tag payload => some (mgmtParcel lane tag 0x09 payload)
  | .sessionReset lane tag payload => some (mgmtParcel lane tag 0x09 payload)
  | .throttleStart lane tag payload => some (mgmtParcel lane tag 0x0A payload)
  | .throttleRelease lane tag payload => some (mgmtParcel lane tag 0x0A payload)
  | .readFaults lane tag payload => some (mgmtParcel lane tag 0x0B payload)
  | .clearFaults lane tag payload => some (mgmtParcel lane tag 0x0C payload)
  | .lock lane tag => some (mgmtParcel lane tag 0x0D [])
  | .restart lane tag => some (mgmtParcel lane tag 0x0E [])
  | .status lane tag => some (mgmtParcel lane tag 0x0F [])
  | .unknownOperation lane tag code => some (mgmtParcel lane tag code [])
  | .grant _ => none
  | .memoryResponse _ _ _ => none
  | .responseTimeout _ => none
  | .windowEnd _ => none
  | .slotEnd _ => none
  | .transmitStart => none
  | .transmissionEnd => none
  | .laneDetached _ => none
  | .finalReplyHanded => none
  | .restartStageMemory => none
  | .restartFinalChange => none

/-- The frame in which a parcel command is received: its parcel's bytes with the end delimiter seen. -/
def instrFrame (i : Instr) : Option Frame := (instrParcel i).map fun p => ⟨p.bytes, true⟩

/-- The command that a word spells by the table's bits: no row of spec/opcode_table.json has bits, so none. -/
def decodeTableWord (_nbits _w : Nat) : Option Instr := none

end Sys2Proof
end

