-- ==== Sys2Proof/Machine/State.lean ====
section
/-! DEFINITION. The state of the part, block by block (00_scope.md, Block overview), as plain data, and its value after line reset. -/

namespace Sys2Proof.Machine

/-! ### Request table (02_the_request_table.md) -/

/-- READ or WRITE (R21). -/
inductive Dir where
  | read
  | write
deriving DecidableEq, Repr

/-- The stages of a slot (2.3). -/
inductive Stage where
  | translating
  | queued
  | issued
  | complete
  | sending
deriving DecidableEq, Repr

/-- Response statuses (R32), in the order of their codes (R181). -/
inductive RespStatus where
  | ok
  | corrected
  | memoryFault
  | timeout
  | noWindow
  | windowSpan
  | denied
  | translationFault
  | cancelled
deriving DecidableEq, Repr

/-- Translation states of a piece (R21). -/
inductive XlatState where
  | notNeeded
  | waiting
  | done
  | failed
deriving DecidableEq, Repr

/-- Piece statuses (R21); every one but `pending` is an outcome (R31). -/
inductive PieceStatus where
  | pending
  | ok
  | corrected
  | failed
  | noTarget
  | timeout
deriving DecidableEq, Repr

/-- Window kinds (R45). -/
inductive WindowKind where
  | direct
  | translated
  | sink
deriving DecidableEq, Repr

/-- The decode capture (R60). -/
structure Capture where
  row : Fin 24
  kind : WindowKind
  generation : BitVec 32
  pageIndex : Option Nat
  targetPage : Option Nat
  tableOffset : Option Nat
deriving DecidableEq, Repr

/-- A piece (R21), with the entry index a TRANSLATED piece takes at decode (R62). -/
structure Piece where
  address : Option MemAddr
  length : Nat
  xlat : XlatState
  memId : Option MemId
  status : PieceStatus
  entry : Option Nat
deriving DecidableEq, Repr

/-- A staging unit that a slot holds (R91, R96): its number, 0 to 255, and for a READ whether it is filled. -/
structure HeldUnit where
  unit : Nat
  filled : Bool
deriving DecidableEq, Repr

/-- A request slot in use (R21). Its lane is the lane whose list holds it (R23); its units field is the length of `held`. -/
structure Slot where
  tag : Tag
  number : BitVec 8
  dir : Dir
  address : BitVec 32
  length : Nat
  capture : Option Capture
  pieces : List Piece
  stage : Stage
  status : Option RespStatus
  held : List HeldUnit
deriving DecidableEq, Repr

/-- The units field of a slot (R21). -/
def Slot.units (q : Slot) : Nat := q.held.length

/-- A piece of a slot in use: its lane, its tag (unique in the lane's list, R23), and whether it is the upper piece. -/
structure PieceRef where
  lane : Lane
  tag : Tag
  upper : Bool
deriving DecidableEq, Repr

/-! ### Session manager (01_agent_sessions.md) -/

/-- Session states (R2, 1.2). -/
inductive SessionState where
  | detached
  | active
  | suspended
  | draining
deriving DecidableEq, Repr

/-- Drain kinds (R2). -/
inductive DrainKind where
  | none
  | answered
  | silent
deriving DecidableEq, Repr

/-- NORMAL or URGENT (R1). -/
inductive Priority where
  | normal
  | urgent
deriving DecidableEq, Repr

/-- JOIN_REPLY statuses, in the order of their codes (R181). -/
inductive JoinStatus where
  | ok
  | refused
  | sessionBusy
  | notReady
deriving DecidableEq, Repr

/-- LEAVE_REPLY statuses, in the order of their codes (R181). -/
inductive LeaveStatus where
  | ok
  | notJoined
  | draining
  | staleSession
  | notReady
deriving DecidableEq, Repr

/-- An item of a lane's response stream (R10): an answer handed by the request table, an immediate session reply, or the
closing reply; a reply with its tag and the session number it carries. -/
inductive StreamItem where
  | answer (tag : Tag)
  | joinReply (status : JoinStatus) (tag : Tag) (number : BitVec 8)
  | leaveReply (status : LeaveStatus) (tag : Tag) (number : BitVec 8)
  | closing (tag : Tag) (number : BitVec 8)
deriving DecidableEq, Repr

/-- An agent table row (R1). -/
structure AgentRow where
  enabled : Bool
  identifier : BitVec 64
  area : Fin 16
  cls : ClassNo
  priority : Priority
  maxOutstanding : Nat
  quantum : Nat
  privileged : Bool
  manageCapable : Bool
deriving DecidableEq, Repr

/-- What the part holds for a lane: its session (R5), its credit (R86, R103), its list of slots and issued count (R23, R30),
and its response stream (R10). -/
structure LaneState where
  session : SessionState
  drain : DrainKind
  number : BitVec 8
  /-- The closing reply owed to the LEAVE with this tag (R12, R17). -/
  closingOwed : Option Tag
  /-- The JOIN_REPLY OK of the session has been sent (R9). -/
  joinReplySent : Bool
  credit : Nat
  /-- The CREDIT parcel waiting in the credit set (R103). -/
  creditWaiting : Option Nat
  slots : List Slot
  issued : Nat
  stream : List StreamItem
deriving DecidableEq, Repr

/-! ### Window decoder (03_window_decoding.md) -/

/-- A window table row (R45). -/
structure WindowRow where
  enabled : Bool
  lanes : BitVec 16
  base : BitVec 32
  pages : Nat
  kind : WindowKind
  permitRead : Bool
  permitWrite : Bool
  guarded : Bool
  targetPage : Nat
  tableOffset : Nat
deriving DecidableEq, Repr

/-- The two copies and the generation (R46). `WindowRow.guarded` is the row's protected field. -/
structure WindowUnit where
  staged : Vector WindowRow 24
  active : Vector WindowRow 24
  generation : BitVec 32
deriving DecidableEq, Repr

/-! ### Translation unit (04_page_translation.md) -/

/-- The PORT row (R66). -/
structure PortRow where
  tableBase : Nat
  entryCount : Nat
  tenure : Nat
  timeout : Nat
deriving DecidableEq, Repr

/-- A translation cache entry (R70). -/
structure CacheEntry where
  index : Nat
  frame : BitVec 24
  readable : Bool
  writable : Bool
deriving DecidableEq, Repr

/-- A walk slot that is not FREE (R76): READING or READY. `age` is the count of takings before it took its index. -/
structure Walk where
  reading : Bool
  index : Nat
  waiters : List PieceRef
  stale : Bool
  age : Nat
deriving DecidableEq, Repr

/-- An entry of the walk waiting list (R73). -/
structure WaitingIndex where
  index : Nat
  waiters : List PieceRef
deriving DecidableEq, Repr

/-- The cache, the walk slots (none is FREE) and the waiting list (R70, R73, R76). -/
structure Translation where
  cache : List CacheEntry
  walks : Vector (Option Walk) 2
  waiting : List WaitingIndex
  nextAge : Nat
deriving DecidableEq, Repr

/-! ### Staging buffer (05_staging_areas_and_credit.md) -/

/-- The staging buffer's storage (R86): bytes by unit times 64 plus place, in canonical form. -/
abbrev Memory := List Host.Cell

/-- An area table row (R87). -/
structure AreaRow where
  enabled : Bool
  firstUnit : Nat
  writeUnits : Nat
  readUnits : Nat
deriving DecidableEq, Repr

/-- An area: its row and its three counts (R86). -/
structure Area where
  row : AreaRow
  writeOccupied : Nat
  readReserved : Nat
  readFilled : Nat
deriving DecidableEq, Repr

/-! ### Budget policer (06_budget_classes.md) -/

/-- Class modes (R106). -/
inductive Mode where
  | off
  | monitor
  | enforce
deriving DecidableEq, Repr

/-- The requests a class counts (R106). -/
inductive Counted where
  | reads
  | writes
  | both
deriving DecidableEq, Repr

/-- A class table row (R106); `window` in ms, `slot` in µs. -/
structure ClassRow where
  mode : Mode
  counted : Counted
  window : Nat
  threshold : Nat
  hold : Nat
  slot : Nat
  allowance : Nat
deriving DecidableEq, Repr

/-- A budget class: its row, its runtime state (R108), and its timers in µs left (R109, R110). -/
structure BudgetClass where
  row : ClassRow
  holding : Bool
  windowCount : Nat
  holdsLeft : Nat
  slotUsed : Nat
  windowTimer : Option Nat
  slotTimer : Option Nat
deriving DecidableEq, Repr

/-! ### Memory port (07_the_memory_port.md) -/

/-- The owner of a transaction (R121). -/
inductive Owner where
  | piece (ref : PieceRef)
  | walk (slot : WalkNo)
deriving DecidableEq, Repr

/-- A transaction as issued (R121): direction, address of its first byte, the byte mask of each beat, and for a write the
data of each beat. -/
structure Transaction where
  dir : Dir
  address : MemAddr
  masks : List (BitVec 8)
  data : List Beat
deriving DecidableEq, Repr

/-- The state of a transaction id (R122); `timer` is the µs its response timer has left. -/
inductive IdState where
  | free
  | inUse (owner : Owner) (timer : Nat) (txn : Transaction)
  | quarantined
deriving DecidableEq, Repr

/-- The ids and the tenure state of the arbiter (7.4). -/
structure MemoryPort where
  ids : Vector IdState 16
  lastUrgent : Lane
  lastNormal : Lane
  run : Option (Lane × Nat)
deriving DecidableEq, Repr

/-! ### Fault unit (08_faults_notices_and_the_alert_line.md) -/

/-- The 24 causes, in the order of their numbers (R138). -/
inductive Cause where
  | linkCrc
  | linkFormat
  | linkLost
  | joinRefused
  | refusedRequest
  | tagInUse
  | tableFull
  | creditOverrun
  | refusalLost
  | noWindow
  | accessDenied
  | windowSpan
  | tableRange
  | entryInvalid
  | entryDenied
  | walkFailed
  | thresholdCrossed
  | memCorrected
  | memFailed
  | memNoTarget
  | memTimeout
  | memLate
  | mgmtRefused
  | lockViolation
deriving DecidableEq, Repr

/-- Severities (R138). -/
inductive Severity where
  | notice
  | error
  | severe
deriving DecidableEq, Repr

/-- Routes (R143). -/
inductive Route where
  | silent
  | notify
  | line
deriving DecidableEq, Repr

/-- A route table row (R143); `suspend` is the action SUSPEND_LANE. -/
structure RouteRow where
  route : Route
  suspend : Bool
deriving DecidableEq, Repr

/-- A fault report: a cause and its optional fields (R138). -/
structure Report where
  cause : Cause
  lane : Option Lane := none
  tag : Option Tag := none
  cls : Option ClassNo := none
  link : Option (BitVec 32) := none
  mem : Option MemAddr := none
deriving DecidableEq, Repr

/-- A fault record (R139); its severity is its cause's. -/
structure FaultRecord where
  seq : BitVec 16
  time : BitVec 32
  report : Report
deriving DecidableEq, Repr

/-- What a NOTICE carries (R144, R160). -/
inductive NoticeBody where
  | fault (record : FaultRecord) (logged : Bool)
  | role (old new : Lane)
deriving DecidableEq, Repr

/-- A NOTICE in the queue, with its missed flag (R145). -/
structure Notice where
  body : NoticeBody
  missed : Bool
deriving DecidableEq, Repr

/-- The fault unit; row i of `routes` is the row of cause i + 1 (R143); `alert` is ALERT_N driven low (R146). -/
structure FaultUnit where
  log : List FaultRecord
  nextSeq : BitVec 16
  routes : Vector RouteRow 24
  notices : List Notice
  missed : Bool
  incomplete : Bool
  alert : Bool
deriving DecidableEq, Repr

/-! ### Management engine (09_management_protocol.md) -/

/-- Claim states (R154). -/
inductive Claim where
  | unclaimed
  | pending
  | claimed
deriving DecidableEq, Repr

/-- Restart stages (R154). -/
inductive RestartStage where
  | none
  | lanes
  | memory
deriving DecidableEq, Repr

/-- MGMT_REPLY statuses, in the order of their codes (R181). -/
inductive MgmtStatus where
  | done
  | busy
  | notReady
  | notManager
  | badTable
  | badRow
  | badValue
  | rowInUse
  | overlap
  | locked
  | stagedPending
  | notPermitted
  | state
deriving DecidableEq, Repr

/-- The two operations that last (R161). -/
inductive OpKind where
  | sessionReset (target : Lane)
  | restart
deriving DecidableEq, Repr

/-- The operation in progress (R154, R161); `ended` when it has reached its end and its final reply waits for the slot. -/
structure Operation where
  kind : OpKind
  lane : Lane
  tag : Tag
  ended : Bool
deriving DecidableEq, Repr

/-- A MGMT_REPLY in the reply slot (R162). -/
structure MgmtReply where
  lane : Lane
  tag : Tag
  number : BitVec 8
  code : BitVec 8
  status : MgmtStatus
  kindWord : BitVec 32
  payload : List Word
deriving DecidableEq, Repr

/-- The management engine (R154) and the management reply slot (R162). -/
structure Mgmt where
  claim : Claim
  strapped : Lane
  confirmTimer : Option Nat
  manager : Option Lane
  locked : Bool
  op : Option Operation
  forfeit : Bool
  stage : RestartStage
  restarts : BitVec 32
  reply : Option MgmtReply
deriving DecidableEq, Repr

/-! ### Link port (10_the_agent_link_and_parcel_formats.md) -/

/-- Link states (R173). -/
inductive LinkState where
  | down
  | aligning
  | up
deriving DecidableEq, Repr

/-- REFUSAL codes (R24), in the order of their codes from 1 (R181). -/
inductive RefusalCode where
  | notReady
  | notJoined
  | staleSession
  | suspended
  | draining
  | badRequest
  | tagInUse
  | tableFull
  | creditOverrun
deriving DecidableEq, Repr

/-- A REFUSAL in the refusal queue (R25, R177). -/
structure RefusalItem where
  lane : Lane
  tag : Tag
  number : BitVec 8
  code : RefusalCode
  address : BitVec 32
deriving DecidableEq, Repr

/-- The source of the item in transmission (R178). -/
inductive TxSource where
  | mgmtReply
  | notice
  | refusal
  | credit (lane : Lane)
  | stream (lane : Lane)
deriving DecidableEq, Repr

/-- The parcel in transmission (R179). -/
structure Transmission where
  source : TxSource
  parcel : Parcel
deriving DecidableEq, Repr

/-- The link port (R173, R177, R178); its other sources stand with the blocks that fill them. -/
structure LinkPort where
  state : LinkState
  good : Nat
  damaged : Nat
  refusals : List RefusalItem
  tx : Option Transmission
  lastCredit : Lane
  lastStream : Lane
deriving DecidableEq, Repr

/-! ### The part -/

/-- The state of the part. `pending` is the queue of commands, `freeCount` the counter of free values (log 12). -/
structure State where
  pending : List Instr
  timebase : BitVec 32
  link : LinkPort
  mgmt : Mgmt
  faults : FaultUnit
  lanes : Vector LaneState 16
  agents : Vector AgentRow 16
  windows : WindowUnit
  portRow : PortRow
  xlat : Translation
  areas : Vector Area 16
  staging : Memory
  classes : Vector BudgetClass 8
  port : MemoryPort
  freeCount : Nat
deriving DecidableEq, Repr

/-- Reasons the machine stops with a fault: none, since the spec gives every command of the table an effect and reports its
faults in the state (R138). Nothing raises one, which is safe. -/
inductive Fault where
deriving DecidableEq, Repr

/-- Reasons a command is refused. -/
inductive Refusal where
  /-- A command whose meaning is not written yet: raised by an arm of `exec` alone, and by none of them now; safe. -/
  | notModelled (mnemonic : String)
deriving DecidableEq, Repr

/-! ### Line reset -/

/-- A lane after line reset (R5, R23, R30, R86). -/
def LaneState.reset : LaneState where
  session := .detached
  drain := .none
  number := 0
  closingOwed := none
  joinReplySent := false
  credit := 0
  creditWaiting := none
  slots := []
  issued := 0
  stream := []

/-- The zero agent row (R1). -/
def AgentRow.zero : AgentRow where
  enabled := false
  identifier := 0
  area := 0
  cls := 0
  priority := .normal
  maxOutstanding := 0
  quantum := 0
  privileged := false
  manageCapable := false

/-- The zero window row (R46). -/
def WindowRow.zero : WindowRow where
  enabled := false
  lanes := 0
  base := 0
  pages := 0
  kind := .direct
  permitRead := false
  permitWrite := false
  guarded := false
  targetPage := 0
  tableOffset := 0

/-- The PORT row after line reset (R66). -/
def PortRow.reset : PortRow where
  tableBase := 0
  entryCount := 1
  tenure := 4
  timeout := 1000

/-- An area after line reset (R86, R87). -/
def Area.reset : Area where
  row := ⟨false, 0, 0, 0⟩
  writeOccupied := 0
  readReserved := 0
  readFilled := 0

/-- A class after line reset (R106, R108, R120). -/
def BudgetClass.reset : BudgetClass where
  row := ⟨.off, .reads, 0, 0, 0, 0, 0⟩
  holding := false
  windowCount := 0
  holdsLeft := 0
  slotUsed := 0
  windowTimer := none
  slotTimer := none

/-- The route rows after line reset (R143): LINE for the SEVERE causes 3, 16, 19 and 21. -/
def RouteRow.reset : Vector RouteRow 24 :=
  Vector.ofFn fun i =>
    if i.val = 2 ∨ i.val = 15 ∨ i.val = 18 ∨ i.val = 20 then ⟨.line, false⟩ else ⟨.silent, false⟩

/-- The part right after line reset with nothing pending. The spec gives every value but two: the strapped lane (the
straps; 0 here, log 8) and `freeCount` (log 12). -/
def State.reset : State where
  pending := []
  timebase := 0
  link :=
    { state := .down, good := 0, damaged := 0, refusals := [], tx := none, lastCredit := 15, lastStream := 15 }
  mgmt :=
    { claim := .unclaimed, strapped := 0, confirmTimer := none, manager := none, locked := false, op := none,
      forfeit := false, stage := .none, restarts := 0, reply := none }
  faults :=
    { log := [], nextSeq := 0, routes := RouteRow.reset, notices := [], missed := false, incomplete := false,
      alert := false }
  lanes := Vector.replicate 16 LaneState.reset
  agents := Vector.replicate 16 AgentRow.zero
  windows :=
    { staged := Vector.replicate 24 WindowRow.zero, active := Vector.replicate 24 WindowRow.zero, generation := 0 }
  portRow := PortRow.reset
  xlat := { cache := [], walks := Vector.replicate 2 none, waiting := [], nextAge := 0 }
  areas := Vector.replicate 16 Area.reset
  staging := []
  classes := Vector.replicate 8 BudgetClass.reset
  port := { ids := Vector.replicate 16 .free, lastUrgent := 15, lastNormal := 15, run := none }
  freeCount := 0

end Sys2Proof.Machine
end

