-- ==== Sys2Proof/Machine/Ops.lean ====
section
/-! DEFINITION. The named operations over State that every block uses: one reader and one writer per table, the staging
storage, a lane's list of slots and its pieces. -/

namespace Sys2Proof.Machine

/-! ### Readers and writers -/

def State.lane (s : State) (l : Lane) : LaneState := s.lanes[l]
def State.agent (s : State) (l : Lane) : AgentRow := s.agents[l]
def State.area (s : State) (a : Fin 16) : Area := s.areas[a]
def State.cls (s : State) (c : ClassNo) : BudgetClass := s.classes[c]
def State.memId (s : State) (i : MemId) : IdState := s.port.ids[i]
def State.walk (s : State) (w : WalkNo) : Option Walk := s.xlat.walks[w]

def State.updLane (s : State) (l : Lane) (f : LaneState → LaneState) : State :=
  { s with lanes := s.lanes.set l (f (s.lane l)) }

def State.setAgent (s : State) (l : Lane) (row : AgentRow) : State :=
  { s with agents := s.agents.set l row }

def State.updArea (s : State) (a : Fin 16) (f : Area → Area) : State :=
  { s with areas := s.areas.set a (f (s.area a)) }

def State.updClass (s : State) (c : ClassNo) (f : BudgetClass → BudgetClass) : State :=
  { s with classes := s.classes.set c (f (s.cls c)) }

def State.withLink (s : State) (f : LinkPort → LinkPort) : State := { s with link := f s.link }
def State.withMgmt (s : State) (f : Mgmt → Mgmt) : State := { s with mgmt := f s.mgmt }
def State.withFaults (s : State) (f : FaultUnit → FaultUnit) : State := { s with faults := f s.faults }
def State.withWindows (s : State) (f : WindowUnit → WindowUnit) : State := { s with windows := f s.windows }
def State.withXlat (s : State) (f : Translation → Translation) : State := { s with xlat := f s.xlat }
def State.withPort (s : State) (f : MemoryPort → MemoryPort) : State := { s with port := f s.port }
def State.withStaging (s : State) (f : Memory → Memory) : State := { s with staging := f s.staging }

def State.setId (s : State) (i : MemId) (x : IdState) : State :=
  s.withPort fun p => { p with ids := p.ids.set i x }

def State.setWalk (s : State) (w : WalkNo) (x : Option Walk) : State :=
  s.withXlat fun t => { t with walks := t.walks.set w x }

/-- Advance the counter of free values (log 12). -/
def State.useFree (s : State) (n : Nat) : State := { s with freeCount := s.freeCount + n }

/-- The lanes in order, 0 to 15. -/
def allLanes : List Lane := List.finRange 16
/-- The classes in order, 0 to 7. -/
def allClasses : List ClassNo := List.finRange 8
/-- The transaction ids in order, 0 to 15. -/
def allIds : List MemId := List.finRange 16
/-- The walk slots in order. -/
def allWalks : List WalkNo := List.finRange 2

/-- Apply a function to every element of a table. -/
def mapVec {α β : Type} {n : Nat} (f : α → β) (v : Vector α n) : Vector β n := Vector.ofFn fun i => f v[i]

/-- Take each element of a list in turn. -/
def forEach {α : Type} (xs : List α) (f : α → State → State) (s : State) : State :=
  xs.foldl (fun s x => f x s) s

/-- The lanes in lane order starting after a lane, wrapping from 15 to 0 (R131, R178). -/
def lanesAfter (l : Lane) : List Lane := (List.range 16).map fun k => Fin.ofNat 16 (l.val + 1 + k)

/-- The link is UP: parcels are received and transmitted (R173). -/
def State.linkUp (s : State) : Bool := s.link.state == .up

/-- The part is RESTARTING (R154). -/
def State.restarting (s : State) : Bool := s.mgmt.stage != .none

/-- An enabled agent row's lane names this area (R89); at most one does (R3). -/
def State.areaLane (s : State) (a : Fin 16) : Option Lane :=
  allLanes.find? fun l => (s.agent l).enabled && (s.agent l).area == a

/-- Slots in use in the whole table (R22). -/
def State.slotsInUse (s : State) : Nat := (allLanes.map fun l => (s.lane l).slots.length).sum

/-! ### The staging storage (R86) -/

/-- What the storage holds at an address; none where no fill has written (no defined contents, R86). -/
def Memory.read : Memory → Nat → Option Byte
  | [], _ => none
  | (x, v) :: m, a => if x = a then some v else Memory.read m a

/-- Write one byte, keeping the canonical form. -/
def Memory.write : Memory → Nat → Byte → Memory
  | [], a, b => [(a, b)]
  | (x, v) :: m, a, b =>
    if a < x then (a, b) :: (x, v) :: m
    else if a = x then (a, b) :: m
    else (x, v) :: Memory.write m a b

/-- Drop the contents of a unit that no slot holds any more (R86). -/
def Memory.dropUnit (m : Memory) (u : Nat) : Memory := m.filter fun c => c.1 / Config.unitBytes != u

/-- The canonical form: addresses strictly rising. An unlisted address reads as nothing, so no entry equals it. -/
def Memory.wf : Memory → Bool
  | [] => true
  | [_] => true
  | (x, _) :: (y, w) :: m => decide (x < y) && Memory.wf ((y, w) :: m)

/-- The storage address of place `k` of a request's data in the units its slot holds (R96); none beyond them. -/
def placeAddress (units : List Nat) (k : Nat) : Option Nat :=
  (units[k / Config.unitBytes]?).map fun u => u * Config.unitBytes + k % Config.unitBytes

/-- Write bytes at successive places, from place `k` on (R91, R96). -/
def Memory.put (m : Memory) (units : List Nat) : Nat → List Byte → Memory
  | _, [] => m
  | k, b :: bs =>
    match placeAddress units k with
    | some a => Memory.put (Memory.write m a b) units (k + 1) bs
    | none => Memory.put m units (k + 1) bs

/-- The byte at a place; a byte no fill has written is a free value (log 11, log 14). -/
def Memory.place (m : Memory) (units : List Nat) (free k : Nat) : Byte :=
  ((placeAddress units k).bind fun a => Memory.read m a).getD (Config.freeByte (free + k))

/-! ### A lane's list of slots (R23) -/

/-- Units a request of n bytes needs: n/64 rounded up (R21). -/
def unitsFor (length : Nat) : Nat := (length + 63) / 64

def LaneState.slot? (r : LaneState) (tag : Tag) : Option Slot := r.slots.find? fun q => q.tag == tag

def LaneState.updSlot (r : LaneState) (tag : Tag) (f : Slot → Slot) : LaneState :=
  { r with slots := r.slots.map fun q => if q.tag == tag then f q else q }

def LaneState.dropSlot (r : LaneState) (tag : Tag) : LaneState :=
  { r with slots := r.slots.filter fun q => q.tag != tag }

def State.slot? (s : State) (l : Lane) (tag : Tag) : Option Slot := (s.lane l).slot? tag

def State.updSlot (s : State) (l : Lane) (tag : Tag) (f : Slot → Slot) : State :=
  s.updLane l fun r => r.updSlot tag f

/-- TRANSLATING or QUEUED (R23). -/
def Slot.unissued (q : Slot) : Bool := q.stage == .translating || q.stage == .queued

/-- The oldest unissued slot of a list (R23). -/
def LaneState.oldestUnissued (r : LaneState) : Option Slot := r.slots.find? Slot.unissued

/-- The place of a piece in its slot's list (R62: lower first). -/
def PieceRef.place (p : PieceRef) : Nat := if p.upper then 1 else 0

def Slot.piece? (q : Slot) (upper : Bool) : Option Piece := q.pieces[if upper then 1 else 0]?

def State.updPiece (s : State) (p : PieceRef) (f : Piece → Piece) : State :=
  s.updSlot p.lane p.tag fun q => { q with pieces := q.pieces.modify p.place f }

/-- The byte place at which a piece's bytes begin in the request's data (R96). -/
def Slot.pieceStart (q : Slot) (upper : Bool) : Nat :=
  if upper then (q.pieces.head?.map (·.length)).getD 0 else 0

/-- The position of a piece's first link address in its 4 KiB page (R65): the page offset, or 0 for an upper piece. -/
def Slot.pagePosition (q : Slot) (upper : Bool) : Nat := if upper then 0 else q.address.toNat % 4096

/-- The lane's response stream holds an answer (R10: at most one). -/
def LaneState.answerHanded (r : LaneState) : Bool :=
  r.stream.any fun x => match x with
    | .answer _ => true
    | .joinReply _ _ _ => false
    | .leaveReply _ _ _ => false
    | .closing _ _ => false

/-- The lane's immediate position holds a reply that has not finished transmission (R10). -/
def LaneState.immediateBusy (r : LaneState) : Bool :=
  r.stream.any fun x => match x with
    | .answer _ => false
    | .joinReply _ _ _ => true
    | .leaveReply _ _ _ => true
    | .closing _ _ => false

def StreamItem.isClosing : StreamItem → Bool
  | .answer _ => false
  | .joinReply _ _ _ => false
  | .leaveReply _ _ _ => false
  | .closing _ _ => true

/-- Hand an item to a lane's response stream (R10). -/
def handItem (l : Lane) (x : StreamItem) (s : State) : State :=
  s.updLane l fun r => { r with stream := r.stream ++ [x] }

/-- Hand the head's answer when the head is COMPLETE and no answer has been handed for it (R35). -/
def handAnswer (l : Lane) (s : State) : State :=
  match (s.lane l).slots.head? with
  | some q => if q.stage == .complete && !(s.lane l).answerHanded then handItem l (.answer q.tag) s else s
  | none => s

end Sys2Proof.Machine
end

