-- ==== Sys2Proof/Machine/Flags.lean ====
section
/-! DEFINITION. The fault unit's flags and the codes of statuses: causes and severities (R138), taking a report (R140 to R147),
the log, the missed and incomplete markers, ALERT_N, and the codes of R181 and R182. -/

namespace Sys2Proof.Machine

/-- A cause's row in the route table, its number less one (R138, R143). -/
def Cause.row : Cause → Fin 24
  | .linkCrc => 0
  | .linkFormat => 1
  | .linkLost => 2
  | .joinRefused => 3
  | .refusedRequest => 4
  | .tagInUse => 5
  | .tableFull => 6
  | .creditOverrun => 7
  | .refusalLost => 8
  | .noWindow => 9
  | .accessDenied => 10
  | .windowSpan => 11
  | .tableRange => 12
  | .entryInvalid => 13
  | .entryDenied => 14
  | .walkFailed => 15
  | .thresholdCrossed => 16
  | .memCorrected => 17
  | .memFailed => 18
  | .memNoTarget => 19
  | .memTimeout => 20
  | .memLate => 21
  | .mgmtRefused => 22
  | .lockViolation => 23

/-- The causes in the order of their numbers (R138). -/
def allCauses : List Cause :=
  [.linkCrc, .linkFormat, .linkLost, .joinRefused, .refusedRequest, .tagInUse, .tableFull, .creditOverrun, .refusalLost,
    .noWindow, .accessDenied, .windowSpan, .tableRange, .entryInvalid, .entryDenied, .walkFailed, .thresholdCrossed,
    .memCorrected, .memFailed, .memNoTarget, .memTimeout, .memLate, .mgmtRefused, .lockViolation]

/-- The cause of a route row (R143). -/
def causeOfRow (i : Fin 24) : Cause := allCauses.getD i.val .linkCrc

/-- The number that a fault record carries, 1 to 24 (R138). -/
def Cause.number (c : Cause) : Nat := c.row.val + 1

/-- The fixed severity of each cause (R138). -/
def Cause.severity : Cause → Severity
  | .linkCrc => .notice
  | .linkFormat => .notice
  | .linkLost => .severe
  | .joinRefused => .notice
  | .refusedRequest => .notice
  | .tagInUse => .error
  | .tableFull => .notice
  | .creditOverrun => .error
  | .refusalLost => .error
  | .noWindow => .error
  | .accessDenied => .error
  | .windowSpan => .error
  | .tableRange => .error
  | .entryInvalid => .error
  | .entryDenied => .error
  | .walkFailed => .severe
  | .thresholdCrossed => .notice
  | .memCorrected => .notice
  | .memFailed => .severe
  | .memNoTarget => .error
  | .memTimeout => .severe
  | .memLate => .notice
  | .mgmtRefused => .error
  | .lockViolation => .error

/-- The rank of a severity, lowest first (R138); also its code (R143, R183). -/
def Severity.rank : Severity → Nat
  | .notice => 0
  | .error => 1
  | .severe => 2

def FaultRecord.rank (r : FaultRecord) : Nat := r.report.cause.severity.rank

/-! ### The log (R141, R142) -/

/-- The rank of the lowest severity in a log. -/
def lowestRank : List FaultRecord → Nat
  | [] => 3
  | r :: rs => min r.rank (lowestRank rs)

/-- Remove the newest (last) record of a rank (R142). -/
def removeNewest (rank : Nat) : List FaultRecord → List FaultRecord
  | [] => []
  | r :: rs =>
    if rs.any fun x => x.rank == rank then r :: removeNewest rank rs
    else if r.rank == rank then rs
    else r :: rs

/-- The record that a report would enter the log as (R139). -/
def FaultUnit.record (u : FaultUnit) (time : BitVec 32) (rep : Report) : FaultRecord := ⟨u.nextSeq, time, rep⟩

/-- A report taken with this severity enters the log: there is room (R141), or a lower severity is present (R142). -/
def FaultUnit.admits (u : FaultUnit) (rep : Report) : Bool :=
  decide (u.log.length < Config.logRecords) || decide (lowestRank u.log < rep.cause.severity.rank)

/-- Enter a report in the log, or set the incomplete marker (R141, R142). -/
def FaultUnit.enter (u : FaultUnit) (time : BitVec 32) (rep : Report) : FaultUnit :=
  if u.log.length < Config.logRecords then
    { u with log := u.log ++ [u.record time rep], nextSeq := u.nextSeq + 1 }
  else if lowestRank u.log < rep.cause.severity.rank then
    { u with log := removeNewest (lowestRank u.log) u.log ++ [u.record time rep], nextSeq := u.nextSeq + 1 }
  else { u with incomplete := true }

/-! ### ALERT_N (R146) -/

/-- The log holds a record whose cause's route is LINE. -/
def FaultUnit.lineInLog (u : FaultUnit) : Bool :=
  u.log.any fun r => (u.routes[r.report.cause.row]).route == .line

/-- Drive ALERT_N as the log and the route table say. -/
def FaultUnit.driveAlert (u : FaultUnit) : FaultUnit := { u with alert := u.lineInLog }

/-! ### Notices (R144, R145) -/

/-- Hand a notice to the queue: it joins with the missed flag, or sets the missed marker (R145). -/
def FaultUnit.queueNotice (u : FaultUnit) (body : NoticeBody) : FaultUnit :=
  if u.notices.length < Config.noticePlaces then
    { u with notices := u.notices ++ [⟨body, u.missed⟩], missed := false }
  else { u with missed := true }

/-- The record a FAULT notice carries: the record as logged, or, unlogged, with the number of the newest record in the
log (R144). -/
def FaultUnit.noticeRecord (u : FaultUnit) (time : BitVec 32) (rep : Report) : FaultRecord :=
  if u.admits rep then u.record time rep
  else { u.record time rep with seq := (u.log.getLast?.map (·.seq)).getD u.nextSeq }

/-- The route of a report's cause (R143). -/
def FaultUnit.routeOf (u : FaultUnit) (rep : Report) : RouteRow := u.routes[rep.cause.row]

/-- Take a report: log it or not, drive ALERT_N, queue the notice when the route is NOTIFY and the part is CLAIMED (R140). -/
def FaultUnit.take (u : FaultUnit) (claimed : Bool) (time : BitVec 32) (rep : Report) : FaultUnit :=
  let v := (u.enter time rep).driveAlert
  if (u.routeOf rep).route == .notify && claimed then
    v.queueNotice (.fault (u.noticeRecord time rep) (u.admits rep))
  else v

/-- Empty the notice queue, keeping `kept` of it; a notice discarded sets the missed marker (R145, R151, R152). -/
def FaultUnit.discardNotices (u : FaultUnit) (kept : Nat) : FaultUnit :=
  { u with notices := u.notices.take kept, missed := u.missed || decide (kept < u.notices.length) }

/-! ### Reports (R140, R147) -/

/-- Suspend an ACTIVE lane (R13); a lane in any other state is left as it is. -/
def suspendLane (l : Lane) (s : State) : State :=
  if (s.lane l).session == .active then s.updLane l fun r => { r with session := .suspended } else s

/-- The lane that a report's action asks to suspend (R147). -/
def FaultUnit.suspends (u : FaultUnit) (rep : Report) : Option Lane :=
  if (u.routeOf rep).suspend then rep.lane else none

/-- The fault unit takes a report, then applies its action (R140, R147). -/
def report (rep : Report) (s : State) : State :=
  let t := s.withFaults fun u => u.take (s.mgmt.claim == .claimed) s.timebase rep
  match s.faults.suspends rep with
  | some l => suspendLane l t
  | none => t

/-- Take reports in turn (log 6). -/
def reportAll (reps : List Report) (s : State) : State := forEach reps report s

/-! ### Codes (R181, R182) -/

def JoinStatus.code : JoinStatus → Byte
  | .ok => 0
  | .refused => 1
  | .sessionBusy => 2
  | .notReady => 3

def LeaveStatus.code : LeaveStatus → Byte
  | .ok => 0
  | .notJoined => 1
  | .draining => 2
  | .staleSession => 3
  | .notReady => 4

def RefusalCode.code : RefusalCode → Byte
  | .notReady => 1
  | .notJoined => 2
  | .staleSession => 3
  | .suspended => 4
  | .draining => 5
  | .badRequest => 6
  | .tagInUse => 7
  | .tableFull => 8
  | .creditOverrun => 9

def RespStatus.code : RespStatus → Byte
  | .ok => 0
  | .corrected => 1
  | .memoryFault => 2
  | .timeout => 3
  | .noWindow => 4
  | .windowSpan => 5
  | .denied => 6
  | .translationFault => 7
  | .cancelled => 8

def MgmtStatus.code : MgmtStatus → Byte
  | .done => 0
  | .busy => 1
  | .notReady => 2
  | .notManager => 3
  | .badTable => 4
  | .badRow => 5
  | .badValue => 6
  | .rowInUse => 7
  | .overlap => 8
  | .locked => 9
  | .stagedPending => 10
  | .notPermitted => 11
  | .state => 12

/-- The restart stage in a BUSY reply (R182). -/
def RestartStage.code : RestartStage → Byte
  | .none => 0
  | .lanes => 1
  | .memory => 2

/-- The operation code in progress (R182). -/
def OpKind.code : OpKind → Byte
  | .sessionReset _ => 0x09
  | .restart => 0x0E

/-- A READ_DATA of this status carries data (R32). -/
def RespStatus.carriesData : RespStatus → Bool
  | .ok => true
  | .corrected => true
  | .memoryFault => false
  | .timeout => false
  | .noWindow => false
  | .windowSpan => false
  | .denied => false
  | .translationFault => false
  | .cancelled => false

/-- The rank of a piece status in the choice of the slot's status, worst highest (R31). -/
def PieceStatus.rank : PieceStatus → Nat
  | .pending => 0
  | .ok => 0
  | .corrected => 1
  | .failed => 2
  | .noTarget => 2
  | .timeout => 3

/-- The response status of a slot from its pieces' outcomes (R31). -/
def worstStatus (ps : List Piece) : RespStatus :=
  match (ps.map fun p => p.status.rank).foldl max 0 with
  | 0 => .ok
  | 1 => .corrected
  | 2 => .memoryFault
  | _ => .timeout

end Sys2Proof.Machine
end

