-- ==== Sys2Proof/Machine/Operands.lean ====
section
/-! DEFINITION. Operands as words of the row encoding (R166): the words of every table row, the rows that payload words load,
the range checks of each table's LOAD_ROW, and the operand words of the management operations. -/

namespace Sys2Proof.Machine

/-- A value right-aligned in its word (R166). -/
def natWord (n : Nat) : Word := BitVec.ofNat 32 n

/-- A yes-or-no field (R166). -/
def boolWord (b : Bool) : Word := if b then 1 else 0

/-- Word `k` of a payload as a number; absent words are never looked at by a rule that has counted the words. -/
def wordAt (ws : List Word) (k : Nat) : Nat := (ws.getD k 0).toNat

/-- A field of yes or no as loaded. -/
def flagAt (ws : List Word) (k : Nat) : Bool := wordAt ws k == 1

/-! ### Agent table (R1, R2, R3) -/

def AgentRow.words (r : AgentRow) : List Word :=
  [boolWord r.enabled, r.identifier.extractLsb' 0 32, r.identifier.extractLsb' 32 32, natWord r.area.val,
    natWord r.cls.val, boolWord (r.priority == .urgent), natWord r.maxOutstanding, natWord r.quantum,
    boolWord r.privileged, boolWord r.manageCapable]

def AgentRow.ofWords (ws : List Word) : AgentRow where
  enabled := flagAt ws 0
  identifier := ws.getD 2 0 ++ ws.getD 1 0
  area := Fin.ofNat 16 (wordAt ws 3)
  cls := Fin.ofNat 8 (wordAt ws 4)
  priority := if wordAt ws 5 = 1 then .urgent else .normal
  maxOutstanding := wordAt ws 6
  quantum := wordAt ws 7
  privileged := flagAt ws 8
  manageCapable := flagAt ws 9

/-- Case 3 of R3: every word lies in its field's range. -/
def agentInRange (ws : List Word) : Bool :=
  wordAt ws 0 ≤ 1 && wordAt ws 8 ≤ 1 && wordAt ws 9 ≤ 1 && wordAt ws 3 ≤ 15 && wordAt ws 4 ≤ 7 && wordAt ws 5 ≤ 1
    && wordAt ws 6 ≤ 16 && [0, 1, 2, 4, 8].contains (wordAt ws 7)

def SessionState.code : SessionState → Nat
  | .detached => 0
  | .active => 1
  | .suspended => 2
  | .draining => 3

def DrainKind.code : DrainKind → Nat
  | .none => 0
  | .answered => 1
  | .silent => 2

/-- The five runtime words of an agent row (R2). -/
def LaneState.words (r : LaneState) : List Word :=
  [natWord r.session.code, r.number.setWidth 32, natWord r.credit, natWord r.slots.length, natWord r.drain.code]

/-! ### Window table (R45, R47) -/

def WindowKind.code : WindowKind → Nat
  | .direct => 0
  | .translated => 1
  | .sink => 2

def windowKindOf (n : Nat) : WindowKind :=
  match n with
  | 0 => .direct
  | 1 => .translated
  | _ => .sink

def WindowRow.words (r : WindowRow) : List Word :=
  [boolWord r.enabled, r.lanes.setWidth 32, r.base, natWord r.pages, natWord r.kind.code, boolWord r.permitRead,
    boolWord r.permitWrite, boolWord r.guarded, natWord r.targetPage, natWord r.tableOffset]

def WindowRow.ofWords (ws : List Word) : WindowRow where
  enabled := flagAt ws 0
  lanes := BitVec.ofNat 16 (wordAt ws 1)
  base := ws.getD 2 0
  pages := wordAt ws 3
  kind := windowKindOf (wordAt ws 4)
  permitRead := flagAt ws 5
  permitWrite := flagAt ws 6
  guarded := flagAt ws 7
  targetPage := wordAt ws 8
  tableOffset := wordAt ws 9

/-- Case 4 of R47. -/
def windowInRange (ws : List Word) : Bool :=
  wordAt ws 0 ≤ 1 && wordAt ws 5 ≤ 1 && wordAt ws 6 ≤ 1 && wordAt ws 7 ≤ 1 && wordAt ws 1 ≤ 0xFFFF
    && wordAt ws 2 % 4096 == 0 && wordAt ws 3 ≤ 1048576 && wordAt ws 4 ≤ 2 && wordAt ws 8 ≤ 16777215
    && wordAt ws 9 ≤ 1048575

/-- Cases 5 to 7 of R47, for a row to be enabled. -/
def WindowRow.enableFits (r : WindowRow) : Bool :=
  r.pages != 0 && r.base.toNat / 4096 + r.pages ≤ 1048576
    && !(r.kind == .direct && decide (r.targetPage + r.pages > 16777216))

/-! ### PORT row (R66, R67) -/

def PortRow.words (r : PortRow) : List Word :=
  [natWord r.tableBase, natWord r.entryCount, natWord r.tenure, natWord r.timeout]

def PortRow.ofWords (ws : List Word) : PortRow where
  tableBase := wordAt ws 0
  entryCount := wordAt ws 1
  tenure := wordAt ws 2
  timeout := wordAt ws 3

/-- Case 4 of R67. -/
def portInRange (ws : List Word) : Bool :=
  wordAt ws 0 ≤ 16777215 && 1 ≤ wordAt ws 1 && wordAt ws 1 ≤ 1048576 && 1 ≤ wordAt ws 2 && wordAt ws 2 ≤ 16
    && 4 ≤ wordAt ws 3 && wordAt ws 3 ≤ 4000

/-! ### Area table (R87, R88) -/

def AreaRow.words (r : AreaRow) : List Word :=
  [boolWord r.enabled, natWord r.firstUnit, natWord r.writeUnits, natWord r.readUnits]

def AreaRow.ofWords (ws : List Word) : AreaRow where
  enabled := flagAt ws 0
  firstUnit := wordAt ws 1
  writeUnits := wordAt ws 2
  readUnits := wordAt ws 3

/-- Case 5 of R88. -/
def areaInRange (ws : List Word) : Bool :=
  wordAt ws 0 ≤ 1 && wordAt ws 1 ≤ 255 && wordAt ws 2 ≤ 252 && wordAt ws 3 ≤ 252

/-- The extent of an area: the first unit plus W plus R (R87). -/
def AreaRow.extent (r : AreaRow) : Nat := r.firstUnit + r.writeUnits + r.readUnits

/-- Case 6 of R88, for a row to be enabled. -/
def AreaRow.enableFits (r : AreaRow) : Bool := 4 ≤ r.writeUnits && 4 ≤ r.readUnits && r.extent ≤ 256

/-- The units of two rows overlap (R88, case 7). -/
def AreaRow.overlaps (r q : AreaRow) : Bool := decide (r.firstUnit < q.extent) && decide (q.firstUnit < r.extent)

/-! ### Class table (R106, R107, R108) -/

def Mode.code : Mode → Nat
  | .off => 0
  | .monitor => 1
  | .enforce => 2

def modeOf (n : Nat) : Mode :=
  match n with
  | 0 => .off
  | 1 => .monitor
  | _ => .enforce

def Counted.code : Counted → Nat
  | .reads => 0
  | .writes => 1
  | .both => 2

def countedOf (n : Nat) : Counted :=
  match n with
  | 0 => .reads
  | 1 => .writes
  | _ => .both

def ClassRow.words (r : ClassRow) : List Word :=
  [natWord r.mode.code, natWord r.counted.code, natWord r.window, natWord r.threshold, natWord r.hold, natWord r.slot,
    natWord r.allowance]

def ClassRow.ofWords (ws : List Word) : ClassRow where
  mode := modeOf (wordAt ws 0)
  counted := countedOf (wordAt ws 1)
  window := wordAt ws 2
  threshold := wordAt ws 3
  hold := wordAt ws 4
  slot := wordAt ws 5
  allowance := wordAt ws 6

/-- Case 3 of R107. -/
def classInRange (ws : List Word) : Bool :=
  wordAt ws 0 ≤ 2 && wordAt ws 1 ≤ 2 && wordAt ws 2 ≤ 500 && wordAt ws 3 ≤ 1048575 && wordAt ws 4 ≤ 32
    && wordAt ws 5 ≤ 2550 && wordAt ws 5 % 10 == 0 && wordAt ws 6 ≤ 4096

/-- Case 4 of R107: a class that is not OFF has every length and count. -/
def ClassRow.modeFits (r : ClassRow) : Bool :=
  r.mode == .off || (r.window != 0 && r.threshold != 0 && r.hold != 0 && r.allowance != 0 && 10 ≤ r.slot)

/-- The four runtime words of a class (R108). -/
def BudgetClass.runtimeWords (c : BudgetClass) : List Word :=
  [boolWord c.holding, natWord c.windowCount, natWord c.holdsLeft, natWord c.slotUsed]

/-! ### Route table (R143) -/

def Route.code : Route → Nat
  | .silent => 0
  | .notify => 1
  | .line => 2

def routeOfCode (n : Nat) : Route :=
  match n with
  | 0 => .silent
  | 1 => .notify
  | _ => .line

def RouteRow.words (r : RouteRow) : List Word := [natWord r.route.code, boolWord r.suspend]

def RouteRow.ofWords (ws : List Word) : RouteRow where
  route := routeOfCode (wordAt ws 0)
  suspend := flagAt ws 1

/-- Case 4 of R143. -/
def routeInRange (ws : List Word) : Bool := wordAt ws 0 ≤ 2 && wordAt ws 1 ≤ 1

/-! ### IDENTITY (R167) -/

def identityWords : List Word :=
  [0x0E71, 0x0016, 1, 16, 16, 64, 24, 32, 2, 256, 16, 8, 16, 8, 24, 4, 16, 100]

/-! ### Operands of the operations -/

/-- Step 6 of R155 refuses a HANDOVER payload: no word, or a lane above 15. -/
def handoverBad (ws : List Word) : Bool := ws.length < 1 || 15 < wordAt ws 0

/-- Step 6 of R155 refuses a SESSION payload: fewer than two words, a lane above 15 or an action above 2. -/
def sessionBad (ws : List Word) : Bool := ws.length < 2 || 15 < wordAt ws 0 || 2 < wordAt ws 1

/-- Step 6 of R155 refuses a READ_ROW or LOAD_ROW payload of fewer than two words. -/
def rowBad (ws : List Word) : Bool := ws.length < 2

/-- R115 refuses a THROTTLE payload: fewer than two words, a class above 7 or an action above 1. -/
def throttleBad (ws : List Word) : Bool := ws.length < 2 || 7 < wordAt ws 0 || 1 < wordAt ws 1

/-- R148 refuses a READ_FAULTS or CLEAR_FAULTS payload: no word, or a word above 65,535. -/
def numberBad (ws : List Word) : Bool := ws.length < 1 || 65535 < wordAt ws 0

/-- The scope of an invalidation (R81): ALL, or the indexes from the first to the last. -/
inductive Scope where
  | all
  | range (first last : Nat)
deriving DecidableEq, Repr

def Scope.holds : Scope → Nat → Bool
  | .all, _ => true
  | .range first last, i => decide (first ≤ i) && decide (i ≤ last)

/-- The scope of an INVALIDATE payload, or none where R81 refuses it. -/
def scopeOf (ws : List Word) : Option Scope :=
  if ws.length < 3 then none
  else if wordAt ws 0 = 0 then some .all
  else if wordAt ws 0 = 1 then
    if wordAt ws 1 ≤ 1048575 ∧ wordAt ws 2 ≤ 1048575 ∧ wordAt ws 1 ≤ wordAt ws 2 then
      some (.range (wordAt ws 1) (wordAt ws 2))
    else none
  else none

/-- The lane operand of an operation that has passed step 6. -/
def laneAt (ws : List Word) (k : Nat) : Lane := Fin.ofNat 16 (wordAt ws k)

/-- The class operand of a THROTTLE that R115 takes. -/
def classAt (ws : List Word) (k : Nat) : ClassNo := Fin.ofNat 8 (wordAt ws k)

/-- A record number s lies at or after n in the circle of 65,536 (R148). -/
def atOrAfter (s n : BitVec 16) : Bool := decide ((s - n).toNat < 32768)

/-- A record number s lies at or before n (R148). -/
def atOrBefore (s n : BitVec 16) : Bool := decide ((n - s).toNat < 32768)

/-! ### Fault records as words (R183) -/

/-- Four bytes of a layout as one word, low byte first. -/
def quad (b0 b1 b2 b3 : Byte) : Word := word32 b0 b1 b2 b3

/-- The 32 bytes of a fault record, as eight words (R183); absent fields are zero with their present flags clear. -/
def FaultRecord.words (r : FaultRecord) : List Word :=
  let p := r.report
  let present : Byte :=
    (if p.lane.isSome then 1 else 0) ||| (if p.tag.isSome then 2 else 0) ||| (if p.cls.isSome then 4 else 0)
      ||| (if p.link.isSome then 8 else 0) ||| (if p.mem.isSome then 16 else 0)
  let mem : BitVec 64 := (p.mem.getD 0).setWidth 64
  [quad (r.seq.extractLsb' 0 8) (r.seq.extractLsb' 8 8) (BitVec.ofNat 8 p.cause.number)
      (BitVec.ofNat 8 p.cause.severity.rank),
    r.time,
    quad present (BitVec.ofNat 8 (p.lane.getD 0).val) ((p.tag.getD 0).setWidth 8) (BitVec.ofNat 8 (p.cls.getD 0).val),
    p.link.getD 0, mem.extractLsb' 0 32, mem.extractLsb' 32 32, 0, 0]

end Sys2Proof.Machine
end

