-- ==== Sys2Proof/Machine/Replies.lean ====
section
/-! DEFINITION. The management engine's shared operations: the reply slot (R162), the steps that settle a MGMT parcel (R155 to
R158), and the end of an operation in progress (R161). -/

namespace Sys2Proof.Machine

/-- A MGMT parcel as the engine takes it: its lane, tag and operation code. -/
structure MgmtRequest where
  lane : Lane
  tag : Tag
  code : Byte
deriving DecidableEq, Repr

/-- Hand a reply to the management reply slot (R162). -/
def handReply (rq : MgmtRequest) (st : MgmtStatus) (kindWord : Word) (payload : List Word) (s : State) : State :=
  s.withMgmt fun m =>
    { m with reply := some ⟨rq.lane, rq.tag, (s.lane rq.lane).number, rq.code, st, kindWord, payload⟩ }

/-- A reply with no kind-specific word and no payload. -/
def replyPlain (rq : MgmtRequest) (st : MgmtStatus) (s : State) : State := handReply rq st 0 [] s

/-- The claim state becomes UNCLAIMED and the confirm timer stops (R157). -/
def unclaim (s : State) : State := s.withMgmt fun m => { m with claim := .unclaimed, confirmTimer := none }

/-- A parcel from the strapped lane, other than CONFIRM, ends a pending claim (R157; R155, step 1; R176). -/
def abandonClaim (l : Lane) (s : State) : State :=
  if s.mgmt.claim == .pending && s.mgmt.strapped == l then unclaim s else s

/-- The operation code in progress and the restart stage in a BUSY reply, bytes 12 and 13 (R182); bytes 14 and 15 are 0, which
R182 does not say (log 34). -/
def busyWord (s : State) : Word :=
  quad ((s.mgmt.op.map fun o => o.kind.code).getD 0) s.mgmt.stage.code 0 0

/-- Settle a MGMT parcel that reaches step 3 while the part is not CLAIMED (R156, R157). -/
def settleUnclaimed (rq : MgmtRequest) (s : State) : State :=
  if s.mgmt.claim == .unclaimed && rq.code == 0x01 && rq.lane == s.mgmt.strapped then
    replyPlain rq .done (s.withMgmt fun m => { m with claim := .pending, confirmTimer := some Config.confirmTime })
  else if s.mgmt.claim == .pending && rq.code == 0x02 && rq.lane == s.mgmt.strapped then
    replyPlain rq .done
      (s.withMgmt fun m => { m with claim := .claimed, confirmTimer := none, manager := some m.strapped })
  else replyPlain rq .notReady s

/-- The steps of R155 in order; `bad` is step 6 and `run` the operation's own rule, run with the forfeit flag cleared (R161). -/
def takeMgmt (rq : MgmtRequest) (bad : Bool) (run : State → State) (s : State) : State :=
  if !s.linkUp then s
  else
    let s := if rq.code == 0x02 then s else abandonClaim rq.lane s
    if s.mgmt.reply.isSome then report { cause := .mgmtRefused, lane := some rq.lane } s
    else if s.mgmt.claim != .claimed then settleUnclaimed rq s
    else if s.mgmt.manager != some rq.lane then
      report { cause := .mgmtRefused, lane := some rq.lane } (replyPlain rq .notManager s)
    else if s.restarting || s.mgmt.op.isSome then handReply rq .busy (busyWord s) [] s
    else if bad then replyPlain rq .badValue s
    else run (s.withMgmt fun m => { m with forfeit := false })

/-! ### Operations that last (R161) -/

/-- The final reply DONE of an operation in progress, addressed to the lane of its request (R161, R162). -/
def finalReply (o : Operation) (s : State) : MgmtReply :=
  ⟨o.lane, o.tag, (s.lane o.lane).number, o.kind.code, .done, 0, []⟩

/-- An operation that has ended hands its final reply when the slot is empty, or discards it when forfeit; either way it
is no longer in progress (R161). -/
def settleOp (s : State) : State :=
  match s.mgmt.op with
  | some o =>
    if o.ended then
      if s.mgmt.forfeit then s.withMgmt fun m => { m with op := none }
      else if s.mgmt.reply.isNone then s.withMgmt fun m => { m with op := none, reply := some (finalReply o s) }
      else s
    else s
  | none => s

/-- The operation in progress reaches its end (R161). -/
def endOp (s : State) : State :=
  settleOp (s.withMgmt fun m => { m with op := m.op.map fun o => { o with ended := true } })

end Sys2Proof.Machine
end

