-- ==== Sys2Proof/Machine/Staging.lean ====
section
/-! DEFINITION. The staging buffer's accounting: free units of a share, the grant rule and the credit set (R102, R103), units
taken, filled and released (R91, R93, R95 to R97), and beats with their masks (R99 to R101). -/

namespace Sys2Proof.Machine

/-- The area of a lane's agent row (R90). -/
def State.laneArea (s : State) (l : Lane) : Area := s.area (s.agent l).area

/-- The ungranted space of a lane: W less write occupied less credit committed (R102). -/
def State.ungranted (s : State) (l : Lane) : Nat :=
  (s.laneArea l).row.writeUnits - ((s.laneArea l).writeOccupied + (s.lane l).credit)

/-- The grant rule calls for a grant (R102): the lane is ACTIVE and its ungranted space reaches the quantum, or is above 0
with nothing occupied and nothing committed. A grant of 0 units is none (log 21). -/
def State.grantDue (s : State) (l : Lane) : Bool :=
  (s.lane l).session == .active && decide (0 < s.ungranted l)
    && (decide ((s.agent l).quantum ≤ s.ungranted l) || ((s.laneArea l).writeOccupied == 0 && (s.lane l).credit == 0))

/-- Apply the grant rule: the whole ungranted space joins credit committed and the lane's waiting CREDIT (R102, R103). -/
def grantRule (l : Lane) (s : State) : State :=
  if s.grantDue l then
    s.updLane l fun r =>
      { r with
        credit := r.credit + s.ungranted l
        creditWaiting := some (r.creditWaiting.getD 0 + s.ungranted l) }
  else s

/-- The units of the write share (R87). -/
def AreaRow.writeShare (r : AreaRow) : List Nat := List.range' r.firstUnit r.writeUnits

/-- The units of the read share, which follows the write share (R87). -/
def AreaRow.readShare (r : AreaRow) : List Nat := List.range' (r.firstUnit + r.writeUnits) r.readUnits

/-- The units that the slots of a lane hold (R86). -/
def LaneState.heldUnits (r : LaneState) : List Nat := r.slots.flatMap fun q => q.held.map (·.unit)

/-- The first `n` units of a share that no slot of the lane holds (which ones has no effect outside: R86, log 10). -/
def LaneState.freeUnits (r : LaneState) (share : List Nat) (n : Nat) : List Nat :=
  (share.filter fun u => !r.heldUnits.contains u).take n

/-- Release the units of a slot that `gone` picks: the count they were in falls, their contents are dropped, and a WRITE's
release in an ACTIVE lane calls for the grant rule (R93, R97). -/
def releaseUnits (l : Lane) (tag : Tag) (gone : HeldUnit → Bool) (s : State) : State :=
  match s.slot? l tag with
  | none => s
  | some q =>
    let out := q.held.filter gone
    let t := (s.updSlot l tag fun q => { q with held := q.held.filter fun u => !gone u }).withStaging fun m =>
      (out.map (·.unit)).foldl Memory.dropUnit m
    let filled := (out.filter (·.filled)).length
    match q.dir with
    | .write => grantRule l (t.updArea (s.agent l).area fun a => { a with writeOccupied := a.writeOccupied - out.length })
    | .read =>
      t.updArea (s.agent l).area fun a =>
        { a with readReserved := a.readReserved - (out.length - filled), readFilled := a.readFilled - filled }

/-- Read room of a lane's area: R less read reserved less read filled (R94). -/
def State.readRoom (s : State) (l : Lane) : Nat :=
  (s.laneArea l).row.readUnits - ((s.laneArea l).readReserved + (s.laneArea l).readFilled)

/-- Reserve the units of a granted READ (R95). -/
def reserveUnits (l : Lane) (tag : Tag) (n : Nat) (s : State) : State :=
  let units := (s.lane l).freeUnits (s.laneArea l).row.readShare n
  (s.updSlot l tag fun q => { q with held := units.map fun u => ⟨u, false⟩ }).updArea (s.agent l).area fun a =>
    { a with readReserved := a.readReserved + n }

/-! ### Beats and byte masks (R99 to R101) -/

/-- The number of beats of a piece (R99). -/
def beatCount (a : MemAddr) (length : Nat) : Nat := (a.toNat + length - 1) / 8 - a.toNat / 8 + 1

/-- Position `p` of beat `i` belongs to the piece (R99). -/
def inPiece (a : MemAddr) (length i p : Nat) : Bool :=
  let x := (a.toNat / 8 + i) * 8 + p
  decide (a.toNat ≤ x) && decide (x < a.toNat + length)

/-- The byte mask of beat `i` of a piece (R99). -/
def beatMask (a : MemAddr) (length i : Nat) : BitVec 8 :=
  (List.range 8).foldl (fun m p => if inPiece a length i p then m ||| (1#8 <<< p) else m) 0

/-- The byte masks of a piece, one a beat (R99). -/
def pieceMasks (a : MemAddr) (length : Nat) : List (BitVec 8) :=
  (List.range (beatCount a length)).map (beatMask a length)

/-- Byte `p` of a beat. -/
def beatByte (b : Beat) (p : Nat) : Byte := (b >>> (8 * p)).setWidth 8

/-- A beat from its eight bytes, position 0 lowest. -/
def beatOf (byte : Nat → Byte) : Beat :=
  (List.range 8).foldl (fun b p => b ||| ((byte p).setWidth 64 <<< (8 * p))) 0

/-- The data of a WRITE piece's beats (R100): the piece's bytes at their positions, from its place `start` in the slot's
units; free values at clear positions (log 12). -/
def writeBeats (m : Memory) (units : List Nat) (free start : Nat) (a : MemAddr) (length : Nat) : List Beat :=
  (List.range (beatCount a length)).map fun i =>
    beatOf fun p =>
      if inPiece a length i p then
        Memory.place m units free (start + ((a.toNat / 8 + i) * 8 + p - a.toNat))
      else Config.freeByte (free + 256 + i * 8 + p)

/-- The bytes a response's beats bring at the positions their masks set, in order of memory address (R101). -/
def maskedBytes (masks : List (BitVec 8)) (beats : List Beat) : List Byte :=
  (masks.zip beats).flatMap fun x => ((List.range 8).filter fun p => x.1.getLsbD p).map (beatByte x.2)

/-- The unit of place `k` receives a byte of the piece that begins at `start` (R96). -/
def unitTouched (start length k : Nat) : Bool :=
  decide (start / Config.unitBytes ≤ k) && decide (k ≤ (start + length - 1) / Config.unitBytes)

/-- The units of a slot after a piece has filled its bytes, from unit number `k` of the slot on (R96). -/
def fillUnits (start length : Nat) : Nat → List HeldUnit → List HeldUnit
  | _, [] => []
  | k, u :: us => { u with filled := u.filled || unitTouched start length k } :: fillUnits start length (k + 1) us

/-- A READ piece's bytes go to their places, and every unit they touch that was not filled moves from read reserved to read
filled (R96). -/
def fillPiece (l : Lane) (tag : Tag) (upper : Bool) (masks : List (BitVec 8)) (beats : List Beat) (s : State) : State :=
  match s.slot? l tag with
  | none => s
  | some q =>
    match q.piece? upper with
    | none => s
    | some p =>
      let start := q.pieceStart upper
      let held := fillUnits start p.length 0 q.held
      let moved := (held.filter (·.filled)).length - (q.held.filter (·.filled)).length
      ((s.updSlot l tag fun q => { q with held := held }).withStaging fun m =>
          Memory.put m (q.held.map (·.unit)) start (maskedBytes masks beats)).updArea (s.agent l).area fun a =>
        { a with readReserved := a.readReserved - moved, readFilled := a.readFilled + moved }

/-- The payload of a READ_DATA with data (R98): the request's bytes from the slot's units. -/
def Slot.data (q : Slot) (m : Memory) (free : Nat) : List Byte :=
  (List.range q.length).map (Memory.place m (q.held.map (·.unit)) free)

end Sys2Proof.Machine
end

