-- ==== Sys2Proof/Machine/Walks.lean ====
section
/-! DEFINITION. The translation unit's shared operations: waiters and the waiting list (R73, R75), taking an index (R76), lookup
(R71, R72), installing (R80) and invalidation (R81, R83). -/

namespace Sys2Proof.Machine

/-- A waiter list without the pieces of a slot (R75). -/
def withoutSlot (l : Lane) (tag : Tag) (ws : List PieceRef) : List PieceRef :=
  ws.filter fun p => !(p.lane == l && p.tag == tag)

/-- The pieces of a slot leave their walks: an index of the waiting list that loses its last waiter is removed, a walk slot
goes on (R75). -/
def dropWaiters (l : Lane) (tag : Tag) (s : State) : State :=
  s.withXlat fun t =>
    { t with
      walks := mapVec (Option.map fun w => { w with waiters := withoutSlot l tag w.waiters }) t.walks
      waiting := (t.waiting.map fun x => { x with waiters := withoutSlot l tag x.waiters }).filter fun x =>
        !x.waiters.isEmpty }

/-- A FREE walk slot takes the oldest index of the waiting list and becomes READY (R76). -/
def takeIndex (w : WalkNo) (s : State) : State :=
  match s.walk w, s.xlat.waiting with
  | none, x :: rest =>
    s.withXlat fun t =>
      { t with
        walks := t.walks.set w (some ⟨false, x.index, x.waiters, false, t.nextAge⟩)
        waiting := rest
        nextAge := t.nextAge + 1 }
  | _, _ => s

/-- Both walk slots in order (R76: slot 0 takes the older index when both are FREE). -/
def takeIndexes (s : State) : State := forEach allWalks takeIndex s

/-- A piece joins the waiters of a walk slot that holds its index, else of the waiting list's entry, else the index joins
the tail of the list (R73). -/
def joinWaiters (index : Nat) (p : PieceRef) (s : State) : State :=
  match allWalks.find? fun w => (s.walk w).any fun x => x.index == index with
  | some w => s.setWalk w ((s.walk w).map fun x => { x with waiters := x.waiters ++ [p] })
  | none =>
    s.withXlat fun t =>
      if t.waiting.any fun x => x.index == index then
        { t with
          waiting := t.waiting.map fun x => if x.index == index then { x with waiters := x.waiters ++ [p] } else x }
      else { t with waiting := t.waiting ++ [⟨index, [p]⟩] }

/-- What a lookup finds (R71 to R73). -/
inductive Found where
  | beyond
  | hit (entry : CacheEntry)
  | miss
deriving DecidableEq, Repr

/-- Look up an entry index (R71 to R73). -/
def State.lookUp (s : State) (index : Nat) : Found :=
  if s.portRow.entryCount ≤ index then .beyond
  else
    match s.xlat.cache.find? fun e => e.index == index with
    | some e => .hit e
    | none => .miss

/-- The memory address of a piece translated through a frame (R65). -/
def frameAddress (frame : BitVec 24) (position : Nat) : MemAddr := BitVec.ofNat 36 (frame.toNat * 4096 + position)

/-- An entry permits a direction (R65, R72). -/
def CacheEntry.permits (e : CacheEntry) (dir : Dir) : Bool :=
  match dir with
  | .read => e.readable
  | .write => e.writable

/-- The memory address of the entry of an index (R66). -/
def PortRow.entryAddress (r : PortRow) (index : Nat) : MemAddr := BitVec.ofNat 36 (r.tableBase * 4096 + index * 8)

/-- A valid page table entry as a cache entry, or none where bit 0 is clear (R65, R184). -/
def entryOf (index : Nat) (value : BitVec 64) : Option CacheEntry :=
  if value.getLsbD 0 then
    some ⟨index, value.extractLsb' 12 24, value.getLsbD 1, value.getLsbD 2⟩
  else none

/-- Install an entry at the tail, the head giving way in a full cache (R80). -/
def install (e : CacheEntry) (cache : List CacheEntry) : List CacheEntry :=
  (if cache.length < Config.cacheEntries then cache else cache.tail) ++ [e]

/-- Walks an invalidation marks stale: READING, in the scope, and not stale already (R81). -/
def Walk.marked (w : Walk) (sc : Scope) : Bool := w.reading && sc.holds w.index && !w.stale

/-- The walks marked count of an invalidation (R81). -/
def State.walksMarked (s : State) (sc : Scope) : Nat :=
  (allWalks.filter fun w => (s.walk w).any fun x => x.marked sc).length

/-- A piece holding a translation in the scope (R83). -/
def Piece.holding (p : Piece) (sc : Scope) : Bool := p.xlat == .done && p.entry.any sc.holds

/-- Stages in which a piece's memory access may still come (R83). -/
def Stage.mayAccess : Stage → Bool
  | .translating => true
  | .queued => true
  | .issued => true
  | .complete => false
  | .sending => false

/-- The pieces holding count (R83). -/
def State.piecesHolding (s : State) (sc : Scope) : Nat :=
  (allLanes.map fun l =>
    ((s.lane l).slots.map fun q =>
      if q.stage.mayAccess then (q.pieces.filter fun p => p.holding sc).length else 0).sum).sum

/-- The invalidation (R81): cached entries in the scope go, READING walks in the scope become stale. -/
def invalidateScope (sc : Scope) (s : State) : State :=
  s.withXlat fun t =>
    { t with
      cache := t.cache.filter fun e => !sc.holds e.index
      walks := mapVec (Option.map fun w => { w with stale := w.stale || w.marked sc }) t.walks }

/-- The two counts of an invalidation reply (R81). -/
def State.invalidationCounts (s : State) (sc : Scope) : List Word :=
  [natWord (s.walksMarked sc), natWord (s.piecesHolding sc)]

end Sys2Proof.Machine
end

