-- ==== Sys2Proof/Machine/Drains.lean ====
section
/-! DEFINITION. Slots completed, discarded and freed (R31 to R41), drains (R12, R17, R18), and the stages of RESTART
(R171, R172). -/

namespace Sys2Proof.Machine

/-! ### RESTART (R171, R172) -/

/-- Every lane is DETACHED (R171). -/
def State.allDetached (s : State) : Bool := allLanes.all fun l => (s.lane l).session == .detached

def IdState.isFree : IdState → Bool
  | .free => true
  | .inUse _ _ _ => false
  | .quarantined => false

def IdState.isInUse : IdState → Bool
  | .free => false
  | .inUse _ _ _ => true
  | .quarantined => false

/-- The FREE ids in order (R122). -/
def State.freeIds (s : State) : List MemId := allIds.filter fun i => (s.memId i).isFree

/-- The ids a walk's grant needs: none when its index is at or beyond the entry count (R129). -/
def State.walkNeeds (s : State) (w : Walk) : Nat := if w.index < s.portRow.entryCount then 1 else 0

/-- No id is IN_USE, and every walk slot is FREE, or READY with fewer FREE ids than its grant needs (R171). -/
def State.memoryQuiet (s : State) : Bool :=
  (allIds.all fun i => !(s.memId i).isInUse)
    && allWalks.all fun w =>
        match s.walk w with
        | none => true
        | some x => !x.reading && decide (s.freeIds.length < s.walkNeeds x)

/-- A class OPEN with its counts 0 and its timers restarted (R118, R119); an OFF class has no timers. -/
def BudgetClass.reopened (c : BudgetClass) : BudgetClass :=
  { c with
    holding := false
    windowCount := 0
    holdsLeft := 0
    slotUsed := 0
    windowTimer := if c.row.mode == .off then none else some (c.row.window * 1000)
    slotTimer := if c.row.mode == .off then none else some c.row.slot }

/-- Free an id that is QUARANTINED (R136). -/
def IdState.released : IdState → IdState
  | .free => .free
  | .inUse o t x => .inUse o t x
  | .quarantined => .free

/-- A walk slot that is READY is made FREE without a read (R84). -/
def readyFreed (w : Option Walk) : Option Walk := w.filter fun x => x.reading

/-- The final change of RESTART (R172). -/
def finalChange (s : State) : State :=
  endOp
    { s with
      port := { s.port with ids := mapVec IdState.released s.port.ids, run := none }
      xlat := { s.xlat with cache := [], walks := mapVec readyFreed s.xlat.walks }
      classes := mapVec BudgetClass.reopened s.classes
      mgmt := { s.mgmt with restarts := s.mgmt.restarts + 1, stage := .none } }

/-- The final change, when the stage is MEMORY and its condition is met (R171). -/
def restartMemory (s : State) : State :=
  if s.mgmt.stage == .memory && s.memoryQuiet then finalChange s else s

/-- The test of R171: LANES passes to MEMORY when every lane is DETACHED, and the final change follows in the same change
when its condition is already met. -/
def restartProgress (s : State) : State :=
  if s.mgmt.stage == .lanes && s.allDetached then
    restartMemory (s.withMgmt fun m => { m with stage := .memory })
  else restartMemory s

/-! ### Entry to DETACHED (R12, R18, R104) -/

/-- What R12 and R18 do to the lane: the closing reply is handed if one is owed, and the lane is DETACHED with no credit. -/
def LaneState.detach (r : LaneState) : LaneState :=
  { r with
    session := .detached
    drain := .none
    closingOwed := none
    joinReplySent := false
    credit := 0
    creditWaiting := none
    stream :=
      match r.drain, r.closingOwed with
      | .answered, some tag => r.stream ++ [.closing tag r.number]
      | _, _ => r.stream }

/-- A SESSION RESET in progress waits on this lane (R16). -/
def State.resetWaits (s : State) (l : Lane) : Bool :=
  s.mgmt.op.any fun o => o.kind == .sessionReset l && !o.ended

/-- A lane enters DETACHED: a SESSION RESET that waits on it ends (R16), and RESTART may go on (R171). -/
def enterDetached (l : Lane) (s : State) : State :=
  let t := s.updLane l LaneState.detach
  restartProgress (if t.resetWaits l then endOp t else t)

/-- A DRAINING lane whose list is empty enters DETACHED (R12, R18, R23). -/
def closeDrain (l : Lane) (s : State) : State :=
  if (s.lane l).session == .draining && (s.lane l).slots.isEmpty then enterDetached l s else s

/-! ### Slots -/

/-- The issued count falls when an ISSUED slot becomes COMPLETE or is discarded (R30). -/
def LaneState.leaveIssued (r : LaneState) (q : Slot) : LaneState :=
  if q.stage == .issued then { r with issued := r.issued - 1 } else r

/-- The units a slot gives back when it becomes COMPLETE with a status (R33, R34): a WRITE's all, a READ's unfilled ones,
and its filled ones where the status carries no payload. -/
def givesBack (dir : Dir) (st : RespStatus) (u : HeldUnit) : Bool :=
  match dir with
  | .write => true
  | .read => !u.filled || !st.carriesData

/-- A slot becomes COMPLETE with a status: its waiting pieces leave their walks (R28, R39, R75), it gives back units
(R33, R34), and its answer is handed if it is the head (R35). -/
def completeSlot (l : Lane) (tag : Tag) (st : RespStatus) (s : State) : State :=
  match s.slot? l tag with
  | none => s
  | some q =>
    handAnswer l
      (releaseUnits l tag (givesBack q.dir st)
        (dropWaiters l tag
          (s.updLane l fun r =>
            (r.leaveIssued q).updSlot tag fun q => { q with stage := .complete, status := some st })))

/-- A slot leaves its list unanswered: its waiting pieces leave their walks and it releases every unit it holds
(R40, R41, R75). -/
def discardSlot (l : Lane) (tag : Tag) (s : State) : State :=
  match s.slot? l tag with
  | none => s
  | some q =>
    (releaseUnits l tag (fun _ => true) (dropWaiters l tag s)).updLane l fun r => (r.leaveIssued q).dropSlot tag

/-- A slot whose answer's transmission has ended is freed: it leaves its list and its filled units are released (R37). -/
def freeSlot (l : Lane) (tag : Tag) (s : State) : State :=
  (releaseUnits l tag (fun _ => true) s).updLane l fun r => r.dropSlot tag

/-- After a slot has left a lane's list: the next head is answered (R35), or a drain closes (R23). -/
def afterLeaving (l : Lane) (s : State) : State := closeDrain l (handAnswer l s)

/-! ### Drains -/

/-- The slots of a lane that a drain of kind ANSWERED completes (R39). -/
def LaneState.unissuedTags (r : LaneState) : List Tag := (r.slots.filter Slot.unissued).map (·.tag)

/-- The slots of a lane that a drain of kind SILENT discards (R40). -/
def LaneState.silentTags (r : LaneState) : List Tag :=
  (r.slots.filter fun q => q.unissued || q.stage == .complete).map (·.tag)

/-- A drain of kind ANSWERED opens on a lane for the LEAVE with this tag (R11, R39); it closes at once on an empty list. -/
def openAnswered (l : Lane) (leaveTag : Tag) (s : State) : State :=
  let t := s.updLane l fun r => { r with session := .draining, drain := .answered, closingOwed := some leaveTag }
  closeDrain l (forEach (t.lane l).unissuedTags (fun tag => completeSlot l tag .cancelled) t)

/-- The head of the lane's stream is in transmission (R178, R179). -/
def State.streamStarted (s : State) (l : Lane) : Bool := s.link.tx.any fun x => x.source == .stream l

/-- What R17 and R40 leave in a stream: an item whose transmission has started, and a closing reply already handed
(log 18); the immediate reply and the withdrawn answer go. -/
def keptStream (started : Bool) (xs : List StreamItem) : List StreamItem :=
  if started then xs.take 1 ++ xs.tail.filter StreamItem.isClosing else xs.filter StreamItem.isClosing

/-- The drain kind of a lane becomes SILENT (R17, R40); the drain closes at once when no slot stays. -/
def silence (l : Lane) (s : State) : State :=
  let started := s.streamStarted l
  let t := s.updLane l fun r =>
    { r with session := .draining, drain := .silent, closingOwed := none, stream := keptStream started r.stream }
  closeDrain l (forEach (t.lane l).silentTags (discardSlot l) t)

/-- SILENT for a lane that holds a session and is not SILENT already (R17; log 28). -/
def silenceNew (l : Lane) (s : State) : State :=
  if (s.lane l).session == .detached || (s.lane l).drain == .silent then s else silence l s

end Sys2Proof.Machine
end

