-- ==== Sys2Proof/Machine/Decoder.lean ====
section
/-! DEFINITION. The window decoder (R54 to R63): the row a request selects, the failures, the capture and the pieces. -/

namespace Sys2Proof.Machine

/-- A READ or WRITE parcel at the request table (2.2). -/
structure Request where
  lane : Lane
  tag : Tag
  number : BitVec 8
  dir : Dir
  address : BitVec 32
  length : Nat
  data : List Byte
deriving DecidableEq, Repr

/-- The last byte of a request, computed without wrapping (R54). -/
def Request.lastByte (rq : Request) : Nat := rq.address.toNat + rq.length - 1

/-- The end of a row's range (R45). -/
def WindowRow.rangeEnd (r : WindowRow) : Nat := r.base.toNat + r.pages * 4096

/-- The row's range holds a link address (R45). -/
def WindowRow.inRange (r : WindowRow) (a : Nat) : Bool := decide (r.base.toNat ≤ a) && decide (a < r.rangeEnd)

/-- The row admits a lane's first byte: enabled, lane in its set, first byte in its range (R55). -/
def WindowRow.selects (r : WindowRow) (l : Lane) (first : Nat) : Bool :=
  r.enabled && r.lanes.getLsbD l.val && r.inRange first

/-- The lowest-numbered ACTIVE row that selects a request (R55). -/
def State.selectRow (s : State) (l : Lane) (first : Nat) : Option (Fin 24) :=
  (List.finRange 24).find? fun i => (s.windows.active[i]).selects l first

def WindowRow.permits (r : WindowRow) (dir : Dir) : Bool :=
  match dir with
  | .read => r.permitRead
  | .write => r.permitWrite

/-- The outcome of a decode (R27). -/
inductive Decoded where
  | failed (status : RespStatus) (cause : Cause)
  | sink (capture : Capture)
  | direct (capture : Capture) (address : MemAddr)
  | translated (capture : Capture) (pieces : List Piece)
deriving DecidableEq, Repr

/-- A piece of a TRANSLATED request as decode forms it (R62). -/
def waitingPiece (length entry : Nat) : Piece := ⟨none, length, .waiting, none, .pending, some entry⟩

/-- The pieces of a TRANSLATED request (R62). -/
def translatedPieces (r : WindowRow) (pageIndex pageOffset length : Nat) : List Piece :=
  if pageOffset + length ≤ 4096 then [waitingPiece length (r.tableOffset + pageIndex)]
  else
    [waitingPiece (4096 - pageOffset) (r.tableOffset + pageIndex),
      waitingPiece (length - (4096 - pageOffset)) (r.tableOffset + pageIndex + 1)]

/-- Decode against a selected row that holds the whole request and admits it (R59 to R63). -/
def decodeByKind (i : Fin 24) (r : WindowRow) (generation : BitVec 32) (rq : Request) : Decoded :=
  let offset := rq.address.toNat - r.base.toNat
  let pageIndex := offset / 4096
  match r.kind with
  | .sink => .sink ⟨i, .sink, generation, none, none, none⟩
  | .direct =>
    .direct ⟨i, .direct, generation, some pageIndex, some r.targetPage, none⟩
      (BitVec.ofNat 36 (r.targetPage * 4096 + offset))
  | .translated =>
    .translated ⟨i, .translated, generation, some pageIndex, none, some r.tableOffset⟩
      (translatedPieces r pageIndex (rq.address.toNat % 4096) rq.length)

/-- Decode a request against the ACTIVE copy (R54 to R58). -/
def State.decode (s : State) (rq : Request) : Decoded :=
  match s.selectRow rq.lane rq.address.toNat with
  | none => .failed .noWindow .noWindow
  | some i =>
    let r := s.windows.active[i]
    if !r.inRange rq.lastByte then .failed .windowSpan .windowSpan
    else if !r.permits rq.dir || (r.guarded && !(s.agent rq.lane).privileged) then .failed .denied .accessDenied
    else decodeByKind i r s.windows.generation rq

end Sys2Proof.Machine
end

