-- ==== Sys2Proof/Machine/Translate.lean ====
section
/-! DEFINITION. Pieces and walks: lookup at acceptance (R71 to R74), the checks of waiters (R77 to R80) and the outcomes of
walk reads (R78 to R80, R82). -/

namespace Sys2Proof.Machine

/-- A report that names a request: its lane, tag and link address (R71, R77, R79). -/
def requestReport (cause : Cause) (l : Lane) (q : Slot) : Report :=
  { cause := cause, lane := some l, tag := some q.tag, link := some q.address }

/-- The ENTRY_DENIED report: with the address the piece would have had (R72). -/
def deniedReport (l : Lane) (q : Slot) (a : MemAddr) : Report :=
  { requestReport .entryDenied l q with mem := some a }

/-- A piece is translated (R65, R72, R80). -/
def translatePiece (p : PieceRef) (a : MemAddr) (s : State) : State :=
  s.updPiece p fun x => { x with xlat := .done, address := some a }

/-- A piece fails translation (R28). -/
def failPiece (p : PieceRef) (s : State) : State := s.updPiece p fun x => { x with xlat := .failed }

/-- A TRANSLATING slot with every piece DONE becomes QUEUED (R28). -/
def queueIfDone (l : Lane) (tag : Tag) (s : State) : State :=
  s.updSlot l tag fun q =>
    if q.stage == .translating && q.pieces.all fun p => p.xlat == .done then { q with stage := .queued } else q

/-- What the lookups of an acceptance have come to: the state, the failure of the lowest failing piece, the reports in order. -/
structure Lookups where
  state : State
  failure : Option RespStatus
  reports : List Report

/-- Look up one piece of a slot at acceptance (R71 to R73). -/
def lookPiece (l : Lane) (q : Slot) (upper : Bool) (index : Nat) (k : Lookups) : Lookups :=
  let p : PieceRef := ⟨l, q.tag, upper⟩
  match k.state.lookUp index with
  | .beyond =>
    ⟨failPiece p k.state, some (k.failure.getD .translationFault), k.reports ++ [requestReport .tableRange l q]⟩
  | .hit e =>
    let a := frameAddress e.frame (q.pagePosition upper)
    if e.permits q.dir then ⟨translatePiece p a k.state, k.failure, k.reports⟩
    else ⟨failPiece p k.state, some (k.failure.getD .denied), k.reports ++ [deniedReport l q a]⟩
  | .miss => ⟨joinWaiters index p k.state, k.failure, k.reports⟩

/-- Look up the pieces of an accepted TRANSLATED slot, the lower first (R64, R74). -/
def lookPieces (l : Lane) (q : Slot) (s : State) : Lookups :=
  (q.pieces.zip [false, true]).foldl (fun k x => lookPiece l q x.2 (x.1.entry.getD 0) k) ⟨s, none, []⟩

/-- The lookups' effect on the slot, then the taking of indexes (R28, R74, R76), then the reports (log 7). -/
def translateSlot (l : Lane) (q : Slot) (s : State) : State :=
  let k := lookPieces l q s
  reportAll k.reports
    (takeIndexes
      (match k.failure with
      | some st => completeSlot l q.tag st k.state
      | none => queueIfDone l q.tag k.state))

/-! ### The end of a walk -/

/-- A waiter fails: its piece is FAILED and its slot COMPLETE with a status (R28, R77 to R80). -/
def failWaiter (st : RespStatus) (p : PieceRef) (s : State) : State := completeSlot p.lane p.tag st (failPiece p s)

/-- The slot of a waiter. -/
def State.waiterSlot (s : State) (p : PieceRef) : Option Slot := s.slot? p.lane p.tag

/-- The report that stands for every waiter of a walk and names the first (R77, R79); none without waiters. -/
def firstWaiterReport (cause : Cause) (ws : List PieceRef) (s : State) : List Report :=
  match ws.head? with
  | some p => ((s.waiterSlot p).map (requestReport cause p.lane)).toList
  | none => []

/-- Check one waiter against an installed entry (R80): DONE and its address, or ENTRY_DENIED with its own report. -/
def checkWaiter (e : CacheEntry) (p : PieceRef) (k : State × List Report) : State × List Report :=
  match k.1.waiterSlot p with
  | none => k
  | some q =>
    let a := frameAddress e.frame (q.pagePosition p.upper)
    if e.permits q.dir then (queueIfDone p.lane p.tag (translatePiece p a k.1), k.2)
    else (failWaiter .denied p k.1, k.2 ++ [deniedReport p.lane q a])

/-- Check the waiters in order (R80). -/
def checkWaiters (e : CacheEntry) (ws : List PieceRef) (s : State) : State × List Report :=
  ws.foldl (fun k p => checkWaiter e p k) (s, [])

/-- Every waiter of a walk fails and the walk slot becomes FREE, free to take the next index (R76 to R79). -/
def failWalk (w : WalkNo) (ws : List PieceRef) (s : State) : State :=
  takeIndexes (forEach ws (failWaiter .translationFault) (s.setWalk w none))

/-- An outcome of a memory transaction (R31, R77). -/
inductive Outcome where
  | response (status : MemStatus)
  | timeout
deriving DecidableEq, Repr

/-- The transaction was carried out: OK or CORRECTED (R121). -/
def Outcome.carriedOut : Outcome → Bool
  | .response .ok => true
  | .response .corrected => true
  | .response .failed => false
  | .response .noTarget => false
  | .timeout => false

/-- A walk read's outcome at the translation unit: the state it leaves and the reports of R78 to R80 (R82 raises none). -/
def walkOutcome (w : WalkNo) (o : Outcome) (value : Beat) (address : MemAddr) (s : State) : State × List Report :=
  match s.walk w with
  | none => (s, [])
  | some x =>
    if x.stale then (s.setWalk w (some { x with reading := false, stale := false }), [])
    else if !o.carriedOut then (failWalk w x.waiters s, [{ cause := .walkFailed, mem := some address }])
    else
      match entryOf x.index value with
      | none => (failWalk w x.waiters s, firstWaiterReport .entryInvalid x.waiters s)
      | some e =>
        let k := checkWaiters e x.waiters ((s.setWalk w none).withXlat fun t => { t with cache := install e t.cache })
        (takeIndexes k.1, k.2)

end Sys2Proof.Machine
end

