-- ==== Sys2Proof/Machine/Request.lean ====
section
/-! DEFINITION. READ and WRITE (02_the_request_table.md): the acceptance checks (R24), refusals (R25, R177), acceptance (R26, R27,
R91). -/

namespace Sys2Proof.Machine

/-- A report of R25 with the lane and the tag present. -/
def Request.report (rq : Request) (cause : Cause) : Report := { cause := cause, lane := some rq.lane, tag := some rq.tag }

/-- Check 6 of R24: the length is 0 or above 256, or a WRITE's payload length differs from it. -/
def Request.badLength (rq : Request) : Bool :=
  rq.length == 0 || decide (256 < rq.length) || (rq.dir == .write && rq.data.length != rq.length)

/-- Check 9 of R24: a WRITE that needs more units than the lane's credit committed. -/
def Request.overruns (rq : Request) (r : LaneState) : Bool :=
  rq.dir == .write && decide (r.credit < unitsFor rq.length)

/-- The first check of R24 that fails: the refusal code and the fault it raises; none when all nine pass. -/
def State.refusal (s : State) (rq : Request) : Option (RefusalCode × Option Report) :=
  let r := s.lane rq.lane
  if s.restarting then some (.notReady, none)
  else if r.session == .detached then some (.notJoined, some (rq.report .refusedRequest))
  else if rq.number != r.number then some (.staleSession, some (rq.report .refusedRequest))
  else if r.session == .suspended then some (.suspended, some (rq.report .refusedRequest))
  else if r.session == .draining then some (.draining, some (rq.report .refusedRequest))
  else if rq.badLength then some (.badRequest, some { cause := .linkFormat, lane := some rq.lane })
  else if (r.slot? rq.tag).isSome then some (.tagInUse, some (rq.report .tagInUse))
  else if Config.requestSlots ≤ s.slotsInUse then some (.tableFull, some (rq.report .tableFull))
  else if rq.overruns r then some (.creditOverrun, some (rq.report .creditOverrun))
  else none

/-- The refusal queue is full (R177). -/
def State.refusalsFull (s : State) : Bool := decide (Config.refusalPlaces ≤ s.link.refusals.length)

/-- Refuse a request: the REFUSAL joins the queue with the lane's current session number, or is lost when it is full
(R25, R177); then the check's own report and REFUSAL_LOST (log 6). -/
def refuse (rq : Request) (code : RefusalCode) (rep : Option Report) (s : State) : State :=
  let item : RefusalItem := ⟨rq.lane, rq.tag, (s.lane rq.lane).number, code, rq.address⟩
  if s.refusalsFull then reportAll (rep.toList ++ [{ cause := .refusalLost, lane := some rq.lane }]) s
  else reportAll rep.toList (s.withLink fun k => { k with refusals := k.refusals ++ [item] })

/-- The slot of an accepted request (R26, R27): QUEUED when decode gave its address; otherwise its stage is settled in the
same change. -/
def newSlot (rq : Request) (number : BitVec 8) (d : Decoded) (units : List Nat) : Slot where
  tag := rq.tag
  number := number
  dir := rq.dir
  address := rq.address
  length := rq.length
  capture :=
    match d with
    | .failed _ _ => none
    | .sink c => some c
    | .direct c _ => some c
    | .translated c _ => some c
  pieces :=
    match d with
    | .failed _ _ => []
    | .sink _ => []
    | .direct _ a => [⟨some a, rq.length, .notNeeded, none, .pending, none⟩]
    | .translated _ ps => ps
  stage :=
    match d with
    | .failed _ _ => .translating
    | .sink _ => .translating
    | .direct _ _ => .queued
    | .translated _ _ => .translating
  status := none
  held := units.map fun u => ⟨u, true⟩

/-- The slot joins the tail of its lane's list (R26); a WRITE's units leave credit committed, join write occupied, and
take the payload (R91). -/
def enlist (rq : Request) (d : Decoded) (s : State) : State :=
  let r := s.lane rq.lane
  match rq.dir with
  | .read => s.updLane rq.lane fun r => { r with slots := r.slots ++ [newSlot rq r.number d []] }
  | .write =>
    let n := unitsFor rq.length
    let units := r.freeUnits (s.laneArea rq.lane).row.writeShare n
    ((s.updLane rq.lane fun r =>
          { r with slots := r.slots ++ [newSlot rq r.number d units], credit := r.credit - n }).updArea
        (s.agent rq.lane).area fun a => { a with writeOccupied := a.writeOccupied + n }).withStaging fun m =>
      Memory.put m units 0 rq.data

/-- Accept a request that passed R24: it is enlisted and decoded as one change (R26, R27, R58, R63, R64). -/
def accept (rq : Request) (s : State) : State :=
  let d := s.decode rq
  let t := enlist rq d s
  match d with
  | .failed st cause =>
    report { rq.report cause with link := some rq.address } (completeSlot rq.lane rq.tag st t)
  | .sink _ => completeSlot rq.lane rq.tag .ok t
  | .direct _ _ => t
  | .translated _ _ => translateSlot rq.lane (newSlot rq (s.lane rq.lane).number d []) t

/-- A READ or WRITE parcel at the request table (R24). -/
def takeRequest (rq : Request) (s : State) : State :=
  match s.refusal rq with
  | some x => refuse rq x.1 x.2 s
  | none => accept rq s

/-- A READ or WRITE parcel arrives (R176): none does while the link is not UP (R174), and one from the strapped lane ends a
pending claim first (R157). -/
def requestArrives (rq : Request) (s : State) : State :=
  if !s.linkUp then s else takeRequest rq (abandonClaim rq.lane s)

/-- READ (R24 to R27). -/
def execRead (lane : Byte) (tag : Tag) (number : Byte) (address : BitVec 32) (length : BitVec 16) (s : State) :
    Host.Outcome State Fault Refusal :=
  .next (requestArrives ⟨laneOf lane, tag, number, .read, address, length.toNat, []⟩ s)

/-- WRITE (R24 to R27, R91). -/
def execWrite (lane : Byte) (tag : Tag) (number : Byte) (address : BitVec 32) (length : BitVec 16) (data : List Byte)
    (s : State) : Host.Outcome State Fault Refusal :=
  .next (requestArrives ⟨laneOf lane, tag, number, .write, address, length.toNat, data⟩ s)

end Sys2Proof.Machine
end

