-- ==== Sys2Proof/Machine/Session.lean ====
section
/-! DEFINITION. Sessions (01_agent_sessions.md): JOIN, LEAVE, LANE_DETACHED and the SESSION operations. -/

namespace Sys2Proof.Machine

/-- A JOIN or LEAVE as the session manager takes it: nothing arrives while the link is not UP (R174), a parcel from the
strapped lane ends a pending claim (R157), and one that meets a waiting immediate reply is dropped with REFUSAL_LOST (R10). -/
def sessionParcel (l : Lane) (act : State → State) (s : State) : State :=
  if !s.linkUp then s
  else
    let t := abandonClaim l s
    if (t.lane l).immediateBusy then report { cause := .refusalLost, lane := some l } t else act t

/-- The three conditions of R6. -/
def State.joinAccepts (s : State) (l : Lane) (identifier : BitVec 64) : Bool :=
  (s.agent l).enabled && (s.agent l).identifier == identifier && (s.laneArea l).row.enabled

/-- What an accepted JOIN does to its lane (R6): the next session number, ACTIVE, and the JOIN_REPLY OK handed. -/
def LaneState.join (r : LaneState) (tag : Tag) : LaneState :=
  { r with
    session := .active
    drain := .none
    number := r.number + 1
    joinReplySent := false
    stream := r.stream ++ [.joinReply .ok tag (r.number + 1)] }

/-- JOIN answered by R6 and R7. A JOIN_REPLY REFUSED carries the lane's unchanged number, which R6 does not give (log 30). -/
def takeJoin (l : Lane) (tag : Tag) (identifier : BitVec 64) (s : State) : State :=
  if s.restarting then handItem l (.joinReply .notReady tag (s.lane l).number) s
  else if (s.lane l).session != .detached then handItem l (.joinReply .sessionBusy tag (s.lane l).number) s
  else if s.joinAccepts l identifier then grantRule l (s.updLane l fun r => r.join tag)
  else report { cause := .joinRefused, lane := some l } (handItem l (.joinReply .refused tag (s.lane l).number) s)

/-- JOIN (R6, R7, R9, R10). -/
def execJoin (lane : Byte) (tag : Tag) (identifier : BitVec 64) (s : State) : Host.Outcome State Fault Refusal :=
  .next (sessionParcel (laneOf lane) (takeJoin (laneOf lane) tag identifier) s)

/-- LEAVE answered by the first case of R11 that holds. -/
def takeLeave (l : Lane) (tag : Tag) (number : BitVec 8) (s : State) : State :=
  let r := s.lane l
  if s.restarting then handItem l (.leaveReply .notReady tag r.number) s
  else if r.session == .detached then handItem l (.leaveReply .notJoined tag r.number) s
  else if r.session == .draining then handItem l (.leaveReply .draining tag r.number) s
  else if number != r.number then handItem l (.leaveReply .staleSession tag r.number) s
  else openAnswered l tag s

/-- LEAVE (R10, R11, R39). -/
def execLeave (lane : Byte) (tag : Tag) (number : Byte) (s : State) : Host.Outcome State Fault Refusal :=
  .next (sessionParcel (laneOf lane) (takeLeave (laneOf lane) tag number) s)

/-- LANE_DETACHED (R12, R18): a draining lane whose list is empty enters DETACHED; the changes that empty a list do so
themselves (log 1). -/
def execLaneDetached (lane : Lane) (s : State) : Host.Outcome State Fault Refusal := .next (closeDrain lane s)

/-- SESSION SUSPEND of a lane (R13). -/
def sessionSuspend (rq : MgmtRequest) (l : Lane) (s : State) : State :=
  if (s.lane l).session == .active then replyPlain rq .done (suspendLane l s) else replyPlain rq .state s

/-- SESSION SUSPEND (R13, R155). -/
def execSessionSuspend (lane : Byte) (tag : Tag) (payload : List Word) (s : State) : Host.Outcome State Fault Refusal :=
  let rq : MgmtRequest := ⟨laneOf lane, tag, 0x09⟩
  .next (takeMgmt rq (sessionBad payload) (sessionSuspend rq (laneAt payload 0)) s)

/-- SESSION RESUME of a lane (R15): ACTIVE, and the grant rule applied afresh. -/
def sessionResume (rq : MgmtRequest) (l : Lane) (s : State) : State :=
  if (s.lane l).session == .suspended then
    replyPlain rq .done (grantRule l (s.updLane l fun r => { r with session := .active }))
  else replyPlain rq .state s

/-- SESSION RESUME (R15, R155). -/
def execSessionResume (lane : Byte) (tag : Tag) (payload : List Word) (s : State) : Host.Outcome State Fault Refusal :=
  let rq : MgmtRequest := ⟨laneOf lane, tag, 0x09⟩
  .next (takeMgmt rq (sessionBad payload) (sessionResume rq (laneAt payload 0)) s)

/-- SESSION RESET of a lane (R16): in progress until the lane is DETACHED. -/
def sessionReset (rq : MgmtRequest) (l : Lane) (s : State) : State :=
  if (s.lane l).session == .detached then replyPlain rq .state s
  else silenceNew l (s.withMgmt fun m => { m with op := some ⟨.sessionReset l, rq.lane, rq.tag, false⟩ })

/-- SESSION RESET (R16, R17, R155). -/
def execSessionReset (lane : Byte) (tag : Tag) (payload : List Word) (s : State) : Host.Outcome State Fault Refusal :=
  let rq : MgmtRequest := ⟨laneOf lane, tag, 0x09⟩
  .next (takeMgmt rq (sessionBad payload) (sessionReset rq (laneAt payload 0)) s)

end Sys2Proof.Machine
end

