-- ==== Sys2Proof/Machine/Link.lean ====
section
/-! DEFINITION. Line reset (R154) and the agent link's receiver (R173 to R175): markers, signal, link loss, dropped parcels. -/

namespace Sys2Proof.Machine

/-- LINE_RESET (R43, R85, R105, R120, R137, R153, R154, R173): every block takes its line-reset values and the straps are
sampled; the queue is outside the part, and free values go on being fresh (log 12, log 23). -/
def execLineReset (straps : BitVec 4) (s : State) : Host.Outcome State Fault Refusal :=
  .next
    { State.reset with
      mgmt := { State.reset.mgmt with strapped := straps.toFin }
      pending := s.pending
      freeCount := s.freeCount }

/-- Signal present in DOWN (R173). That signal stays present is not held: its sender places SIGNAL_PRESENT again after a link
loss under which signal stays, and after line reset (log 32). -/
def signalPresent (k : LinkPort) : LinkPort :=
  match k.state with
  | .down => { k with state := .aligning, good := 0, damaged := 0 }
  | .aligning => k
  | .up => k

/-- SIGNAL_PRESENT (R173). -/
def execSignalPresent (s : State) : Host.Outcome State Fault Refusal := .next (s.withLink signalPresent)

/-- A good marker (R173). -/
def goodMarker (k : LinkPort) : LinkPort :=
  match k.state with
  | .down => k
  | .aligning =>
    if Config.goodMarkers ≤ k.good + 1 then { k with state := .up, good := k.good + 1, damaged := 0 }
    else { k with good := k.good + 1 }
  | .up => { k with damaged := 0 }

/-- GOOD_MARKER (R173). -/
def execGoodMarker (s : State) : Host.Outcome State Fault Refusal := .next (s.withLink goodMarker)

/-! ### Link loss (R174) -/

/-- The slot whose answer was being transmitted is freed as though the transmission had ended (R38). -/
def freeCutOff (s : State) : State :=
  match s.link.tx with
  | some x =>
    match x.source with
    | .stream l =>
      match (s.lane l).stream.head? with
      | some (.answer tag) => freeSlot l tag s
      | some (.joinReply _ _ _) => s
      | some (.leaveReply _ _ _) => s
      | some (.closing _ _) => s
      | none => s
    | .mgmtReply => s
    | .notice => s
    | .refusal => s
    | .credit _ => s
  | none => s

/-- A lane's transmit sources emptied: its stream and its waiting CREDIT (R174, step 3); credit committed stays (R104). -/
def LaneState.emptySources (r : LaneState) : LaneState := { r with stream := [], creditWaiting := none }

/-- Steps 1 to 3 of R174: the parcel in transmission is cut off and every transmit source is emptied; a discarded notice
sets the missed marker (R151) and an operation in progress is forfeit (R161). -/
def emptySources (s : State) : State :=
  { s with
    link := { s.link with state := .down, tx := none, refusals := [] }
    lanes := mapVec LaneState.emptySources s.lanes
    faults := s.faults.discardNotices 0
    mgmt := { s.mgmt with reply := none, forfeit := s.mgmt.forfeit || s.mgmt.op.isSome } }

/-- SILENT for a lane that holds a session (R19). -/
def silenceJoined (l : Lane) (s : State) : State := if (s.lane l).session == .detached then s else silence l s

/-- Link loss as one change (R174): the cut-off slot is freed, the sources are emptied, LINK_LOST is taken (R151), every
joined lane goes DRAINING SILENT (R19), and a forfeit operation that has ended is discarded (R161). The link stays DOWN
until SIGNAL_PRESENT is placed again (log 32). -/
def linkLoss (s : State) : State :=
  settleOp (forEach allLanes silenceJoined (report { cause := .linkLost } (emptySources (freeCutOff s))))

/-- A damaged marker (R173); after the third in UP, signal that stays present is SIGNAL_PRESENT placed again (log 32). -/
def damagedMarker (s : State) : State :=
  match s.link.state with
  | .down => s
  | .aligning => s.withLink fun k => { k with good := 0 }
  | .up =>
    if Config.damagedMarkers ≤ s.link.damaged + 1 then
      linkLoss (s.withLink fun k => { k with damaged := k.damaged + 1 })
    else s.withLink fun k => { k with damaged := k.damaged + 1 }

/-- DAMAGED_MARKER (R173, R174). -/
def execDamagedMarker (s : State) : Host.Outcome State Fault Refusal := .next (damagedMarker s)

/-- Loss of signal (R173): from UP it is link loss. -/
def lossOfSignal (s : State) : State :=
  match s.link.state with
  | .down => s
  | .aligning => s.withLink fun k => { k with state := .down }
  | .up => linkLoss s

/-- LOSS_OF_SIGNAL (R173, R174). -/
def execLossOfSignal (s : State) : Host.Outcome State Fault Refusal := .next (lossOfSignal s)

/-- A frame that fails a receive check is dropped with its fault (R175); it reaches no owner. A frame that passes is not
this command's (log 16). -/
def dropFrame (f : Frame) (s : State) : State :=
  match receive f with
  | .crcFault => report { cause := .linkCrc } s
  | .formatFault l => report { cause := .linkFormat, lane := some l } s
  | .handed _ => s

/-- PARCEL_DROPPED (R175): frames are received only while the link is UP. -/
def execParcelDropped (frame : Frame) (s : State) : Host.Outcome State Fault Refusal :=
  .next (if s.linkUp then dropFrame frame s else s)

end Sys2Proof.Machine
end

