-- ==== Sys2Proof/Machine/Port.lean ====
section
/-! DEFINITION. The memory port (07_the_memory_port.md): the arbiter and its grants (R128 to R133), responses (R124, R125, R127)
and timeouts (R126). -/

namespace Sys2Proof.Machine

/-! ### The budget policer's part in a grant (R111 to R113) -/

/-- A request of a counted kind for the class (R106). -/
def ClassRow.counts (r : ClassRow) (dir : Dir) : Bool :=
  match r.counted, dir with
  | .reads, .read => true
  | .reads, .write => false
  | .writes, .read => false
  | .writes, .write => true
  | .both, .read => true
  | .both, .write => true

/-- The policer allows a grant in every case but one (R113). -/
def BudgetClass.allows (c : BudgetClass) (dir : Dir) (units : Nat) : Bool :=
  !(c.holding && c.row.counts dir && decide (0 < c.slotUsed) && decide (c.row.allowance < c.slotUsed + units))

/-- A charge is made: the class is not OFF and the request is of a counted kind (R111). -/
def BudgetClass.charged (c : BudgetClass) (dir : Dir) : Bool := c.row.mode != .off && c.row.counts dir

/-- The counts after a charge (R111); the window count stops at its greatest value (R108). -/
def BudgetClass.charge (c : BudgetClass) (units : Nat) : BudgetClass :=
  { c with
    windowCount := min (c.windowCount + units) Config.windowCountMax
    slotUsed := if c.holding then c.slotUsed + units else c.slotUsed }

/-- A charge takes the window count from below the threshold to it or above (R112). -/
def BudgetClass.crosses (c : BudgetClass) (units : Nat) : Bool :=
  decide (c.windowCount < c.row.threshold) && decide (c.row.threshold ≤ (c.charge units).windowCount)

/-- A crossing in ENFORCE enters or renews HOLDING (R112). -/
def BudgetClass.cross (c : BudgetClass) : BudgetClass :=
  if c.row.mode == .enforce then
    { c with holding := true, holdsLeft := c.row.hold, slotUsed := if c.holding then c.slotUsed else 0 }
  else c

/-- Charge a granted request to its lane's class (R111, R112). -/
def chargeClass (l : Lane) (dir : Dir) (units : Nat) (s : State) : State × List Report :=
  let n := (s.agent l).cls
  let c := s.cls n
  if !c.charged dir then (s, [])
  else if c.crosses units then
    (s.updClass n fun c => (c.charge units).cross, [{ cause := .thresholdCrossed, cls := some n }])
  else (s.updClass n fun c => c.charge units, [])

/-! ### The choice (R128 to R132) -/

/-- The READY walk slot of the greater age, the one that took its index first (R129). -/
def State.readyWalk (s : State) : Option (WalkNo × Walk) :=
  allWalks.foldl
    (fun best w =>
      match s.walk w with
      | some x =>
        if x.reading then best
        else
          match best with
          | some (v, y) => if x.age < y.age then some (w, x) else some (v, y)
          | none => some (w, x)
      | none => best)
    none

/-- A lane in this state may be a candidate (R130). -/
def LaneState.mayOffer (r : LaneState) : Bool :=
  r.session == .active || (r.session == .draining && r.drain == .answered)

/-- The slot a lane offers when it is a candidate (R29, R130). -/
def State.offer (s : State) (l : Lane) : Option Slot :=
  let r := s.lane l
  if r.mayOffer && decide (r.issued < (s.agent l).maxOutstanding) then
    match r.oldestUnissued with
    | some q =>
      if q.stage == .queued && (s.cls (s.agent l).cls).allows q.dir (unitsFor q.length)
          && (q.dir == .write || decide (unitsFor q.length ≤ s.readRoom l)) then some q
      else none
    | none => none
  else none

def State.isCandidate (s : State) (p : Priority) (l : Lane) : Bool := (s.agent l).priority == p && (s.offer l).isSome

/-- The URGENT choice: round robin after the last URGENT lane (R131). -/
def State.urgentChoice (s : State) : Option Lane := (lanesAfter s.port.lastUrgent).find? (s.isCandidate .urgent)

/-- The lane of the run, when it is a candidate with grants of its tenure left (R132). -/
def State.runChoice (s : State) : Option Lane :=
  match s.port.run with
  | some (l, n) => if s.isCandidate .normal l && decide (n < s.portRow.tenure) then some l else none
  | none => none

/-- Round robin among the NORMAL candidates (R132). -/
def State.normalChoice (s : State) : Option Lane := (lanesAfter s.port.lastNormal).find? (s.isCandidate .normal)

/-- The tenure state after an URGENT grant (R131). -/
def MemoryPort.urgentGrant (p : MemoryPort) (l : Lane) : MemoryPort := { p with lastUrgent := l, run := none }

/-- The tenure state after the grant of the run's lane (R132). -/
def MemoryPort.runGrant (p : MemoryPort) (l : Lane) : MemoryPort :=
  { p with lastNormal := l, run := p.run.map fun x => (x.1, x.2 + 1) }

/-- The tenure state after a NORMAL grant by round robin (R132). -/
def MemoryPort.normalGrant (p : MemoryPort) (l : Lane) : MemoryPort := { p with lastNormal := l, run := some (l, 1) }

/-- The lane the arbiter chooses when no walk is READY, with the tenure state its grant leaves (R131, R132). -/
def State.laneChoice (s : State) : Option (Lane × MemoryPort) :=
  match s.urgentChoice with
  | some l => some (l, s.port.urgentGrant l)
  | none =>
    match s.runChoice with
    | some l => some (l, s.port.runGrant l)
    | none => s.normalChoice.map fun l => (l, s.port.normalGrant l)

/-! ### Grants (R77, R123, R133) -/

/-- The FREE ids a grant takes: the named ones when they are so many different FREE ids, else the lowest (log 9). -/
def State.pickIds (s : State) (want : List MemId) (n : Nat) : List MemId :=
  if want.length == n && decide want.Nodup && want.all fun i => (s.memId i).isFree then want else s.freeIds.take n

/-- How far apart the free values of two pieces lie (log 12). -/
def freeStride : Nat := 1024

/-- The transaction of a piece (R99, R100, R121). -/
def pieceTransaction (q : Slot) (upper : Bool) (p : Piece) (m : Memory) (free : Nat) : Transaction where
  dir := q.dir
  address := p.address.getD 0
  masks := pieceMasks (p.address.getD 0) p.length
  data :=
    match q.dir with
    | .read => []
    | .write => writeBeats m (q.held.map (·.unit)) free (q.pieceStart upper) (p.address.getD 0) p.length

/-- Issue one piece of a granted slot under an id, with a response timer of its own (R123). -/
def issuePiece (l : Lane) (q : Slot) (upper : Bool) (p : Piece) (i : MemId) (s : State) : State :=
  let ref : PieceRef := ⟨l, q.tag, upper⟩
  ((s.updPiece ref fun p => { p with memId := some i, status := .pending }).setId i
      (.inUse (.piece ref) s.portRow.timeout (pieceTransaction q upper p s.staging s.freeCount))).useFree freeStride

/-- Issue the pieces of a granted slot, the lower first (R123). -/
def issuePieces (l : Lane) (q : Slot) (ids : List MemId) (s : State) : State :=
  forEach ((q.pieces.zip [false, true]).zip ids) (fun x => issuePiece l q x.1.2 x.1.1 x.2) s

/-- Grant a lane's slot (R133). -/
def grantSlot (l : Lane) (q : Slot) (p : MemoryPort) (ids : List MemId) (s : State) : State :=
  let n := unitsFor q.length
  let t := (s.withPort fun _ => p).updLane l fun r =>
    { r.updSlot q.tag fun q => { q with stage := .issued } with issued := r.issued + 1 }
  let u := if q.dir == .read then reserveUnits l q.tag n t else t
  let k := chargeClass l q.dir n (issuePieces l q ids u)
  reportAll k.2 k.1

/-- Grant a READY walk slot: its read is issued, or it ends with TABLE_RANGE (R77). -/
def grantWalk (w : WalkNo) (x : Walk) (ids : List MemId) (s : State) : State :=
  if x.index < s.portRow.entryCount then
    match ids with
    | i :: _ =>
      (s.setWalk w (some { x with reading := true })).setId i
        (.inUse (.walk w) s.portRow.timeout ⟨.read, s.portRow.entryAddress x.index, [0xFF#8], []⟩)
    | [] => s
  else
    restartProgress
      (reportAll (firstWaiterReport .tableRange x.waiters s) (failWalk w x.waiters s))

/-- What a choice without a grant leaves (R128): a NORMAL choice has ended the run whose lane is no candidate or at its tenure
(the text under R132 and R135). -/
def leaveUngranted (s : State) : State :=
  if s.urgentChoice.isNone && s.runChoice.isNone then s.withPort fun p => { p with run := none } else s

/-- The arbiter grants its first choice when enough ids are FREE (R128). A choice is made here and at no other command, and none
where there is no candidate (log 31). -/
def grant (want : List MemId) (s : State) : State :=
  match s.readyWalk with
  | some (w, x) =>
    if s.walkNeeds x ≤ s.freeIds.length then grantWalk w x (s.pickIds want (s.walkNeeds x)) s else s
  | none =>
    match s.laneChoice with
    | some (l, p) =>
      match s.offer l with
      | some q =>
        if q.pieces.length ≤ s.freeIds.length then grantSlot l q p (s.pickIds want q.pieces.length) s
        else leaveUngranted s
      | none => s
    | none => s

/-- GRANT (R128). -/
def execGrant (ids : List MemId) (s : State) : Host.Outcome State Fault Refusal := .next (grant ids s)

/-! ### Outcomes (R31, R41, R124 to R127) -/

/-- The status a piece takes from an outcome (R31). -/
def Outcome.pieceStatus : Outcome → PieceStatus
  | .response .ok => .ok
  | .response .corrected => .corrected
  | .response .failed => .failed
  | .response .noTarget => .noTarget
  | .timeout => .timeout

/-- The fault of an outcome (R124, R126). -/
def Outcome.cause : Outcome → Option Cause
  | .response .ok => none
  | .response .corrected => some .memCorrected
  | .response .failed => some .memFailed
  | .response .noTarget => some .memNoTarget
  | .timeout => some .memTimeout

/-- The memory port's report of an outcome: the transaction's address, and for a piece its lane and tag (R124, R126). -/
def outcomeReport (owner : Owner) (address : MemAddr) (o : Outcome) : List Report :=
  match o.cause with
  | none => []
  | some c =>
    match owner with
    | .piece ref => [{ cause := c, lane := some ref.lane, tag := some ref.tag, mem := some address }]
    | .walk _ => [{ cause := c, mem := some address }]

/-- An ISSUED slot whose last piece has taken its outcome becomes COMPLETE with the worst status (R31), or in DRAINING
SILENT is discarded (R41). -/
def settleSlot (l : Lane) (tag : Tag) (s : State) : State :=
  match s.slot? l tag with
  | none => s
  | some q =>
    if q.stage == .issued && q.pieces.all fun p => p.status != .pending then
      if (s.lane l).drain == .silent then afterLeaving l (discardSlot l tag s)
      else completeSlot l tag (worstStatus q.pieces) s
    else s

/-- A piece takes its outcome (R31, R96): its status, its data if it brought any, and its slot settled. -/
def pieceOutcome (ref : PieceRef) (o : Outcome) (txn : Transaction) (beats : List Beat) (s : State) : State :=
  let t := s.updPiece ref fun p => { p with status := o.pieceStatus, memId := none }
  settleSlot ref.lane ref.tag
    (match txn.dir with
    | .read => if o.carriedOut then fillPiece ref.lane ref.tag ref.upper txn.masks beats t else t
    | .write => t)

/-- The beat of a walk response; one that brought none gives a free value (log 14). -/
def walkBeat (beats : List Beat) (s : State) : Beat := beats.head?.getD (Config.freeBeat s.freeCount)

/-- Hand an outcome to the owner of a transaction (R124, R125): the state it leaves and the owner's own reports. -/
def handOutcome (owner : Owner) (o : Outcome) (txn : Transaction) (beats : List Beat) (s : State) : State × List Report :=
  match owner with
  | .piece ref => (pieceOutcome ref o txn beats s, [])
  | .walk w => walkOutcome w o (walkBeat beats s) txn.address (s.useFree 1)

/-- A transaction ends with an outcome and its id takes a new state (R124, R126): the owner takes it, the port's report and
then the owner's are taken (log 6), and RESTART may go on (R171). -/
def endTransaction (i : MemId) (x : IdState) (owner : Owner) (o : Outcome) (txn : Transaction) (beats : List Beat)
    (s : State) : State :=
  let k := handOutcome owner o txn beats (s.setId i x)
  restartProgress (reportAll (outcomeReport owner txn.address o ++ k.2) k.1)

/-- A memory response is taken (R124, R127). -/
def memoryResponse (i : MemId) (st : MemStatus) (beats : List Beat) (s : State) : State :=
  match s.memId i with
  | .inUse owner _ txn => endTransaction i .free owner (.response st) txn beats s
  | .quarantined => restartProgress (report { cause := .memLate } (s.setId i .free))
  | .free => report { cause := .memLate } s

/-- MEMORY_RESPONSE (R124, R125, R127). -/
def execMemoryResponse (id : MemId) (status : MemStatus) (beats : List Beat) (s : State) :
    Host.Outcome State Fault Refusal :=
  .next (memoryResponse id status beats s)

/-- The response timer of an IN_USE id expires (R126); no other id has a timer. -/
def responseTimeout (i : MemId) (s : State) : State :=
  match s.memId i with
  | .inUse owner _ txn => endTransaction i .quarantined owner .timeout txn [] s
  | .quarantined => s
  | .free => s

/-- RESPONSE_TIMEOUT (R126). -/
def execResponseTimeout (id : MemId) (s : State) : Host.Outcome State Fault Refusal := .next (responseTimeout id s)

end Sys2Proof.Machine
end

