-- ==== Sys2Proof/Machine/Budget.lean ====
section
/-! DEFINITION. Budget classes (06_budget_classes.md): window ends and slot ends (R109, R110) and THROTTLE (R115 to R117). Charging
stands with the grant (Port.lean). -/

namespace Sys2Proof.Machine

/-- A HOLDING class returns to OPEN with its window count kept (R114). -/
def BudgetClass.opened (c : BudgetClass) : BudgetClass := { c with holding := false, holdsLeft := 0, slotUsed := 0 }

/-- One window end less of a hold (R109): OPEN when none is left. -/
def BudgetClass.holdFalls (c : BudgetClass) : BudgetClass :=
  if !c.holding then c else if c.holdsLeft ≤ 1 then c.opened else { c with holdsLeft := c.holdsLeft - 1 }

/-- The window count returns to 0 and the window timer runs again (R109). -/
def BudgetClass.windowOpens (c : BudgetClass) : BudgetClass :=
  { c with windowCount := 0, windowTimer := some (c.row.window * 1000) }

/-- A window end (R109); an OFF class has no timer. -/
def BudgetClass.windowEnd (c : BudgetClass) : BudgetClass :=
  if c.row.mode == .off then c else c.windowOpens.holdFalls

/-- WINDOW_END (R109). -/
def execWindowEnd (cls : ClassNo) (s : State) : Host.Outcome State Fault Refusal :=
  .next (s.updClass cls BudgetClass.windowEnd)

/-- A slot end (R110); an OFF class has no timer. -/
def BudgetClass.slotEnd (c : BudgetClass) : BudgetClass :=
  if c.row.mode == .off then c else { c with slotUsed := 0, slotTimer := some c.row.slot }

/-- SLOT_END (R110). -/
def execSlotEnd (cls : ClassNo) (s : State) : Host.Outcome State Fault Refusal :=
  .next (s.updClass cls BudgetClass.slotEnd)

/-- A hold begins by hand (R116): the window count is kept. -/
def BudgetClass.held (c : BudgetClass) : BudgetClass :=
  { c with holding := true, holdsLeft := c.row.hold, slotUsed := 0 }

/-- THROTTLE START may hold a class that is OPEN and not OFF (R116). -/
def BudgetClass.mayHold (c : BudgetClass) : Bool := c.row.mode != .off && !c.holding

/-- A THROTTLE that R115 takes: the class changed and DONE, or as it was and STATE, with the runtime words after it. -/
def throttle (rq : MgmtRequest) (n : ClassNo) (may : Bool) (f : BudgetClass → BudgetClass) (s : State) : State :=
  if may then handReply rq .done 0 (f (s.cls n)).runtimeWords (s.updClass n f)
  else handReply rq .state 0 (s.cls n).runtimeWords s

/-- THROTTLE START (R115, R116). -/
def throttleStart (rq : MgmtRequest) (ws : List Word) (s : State) : State :=
  if throttleBad ws then replyPlain rq .badValue s
  else throttle rq (classAt ws 0) (s.cls (classAt ws 0)).mayHold BudgetClass.held s

/-- THROTTLE_START (R115, R116, R155). -/
def execThrottleStart (lane : Byte) (tag : Tag) (payload : List Word) (s : State) : Host.Outcome State Fault Refusal :=
  let rq : MgmtRequest := ⟨laneOf lane, tag, 0x0A⟩
  .next (takeMgmt rq false (throttleStart rq payload) s)

/-- THROTTLE RELEASE (R115, R117). -/
def throttleRelease (rq : MgmtRequest) (ws : List Word) (s : State) : State :=
  if throttleBad ws then replyPlain rq .badValue s
  else throttle rq (classAt ws 0) (s.cls (classAt ws 0)).holding BudgetClass.opened s

/-- THROTTLE_RELEASE (R115, R117, R155). -/
def execThrottleRelease (lane : Byte) (tag : Tag) (payload : List Word) (s : State) :
    Host.Outcome State Fault Refusal :=
  let rq : MgmtRequest := ⟨laneOf lane, tag, 0x0A⟩
  .next (takeMgmt rq false (throttleRelease rq payload) s)

end Sys2Proof.Machine
end

