-- ==== Sys2Proof/Machine/Tables.lean ====
section
/-! DEFINITION. The tables (9.4): READ_ROW (R164), LOAD_ROW and each table's own rule (R165), COMMIT (R51), INVALIDATE (R81) and
LOCK (R169). -/

namespace Sys2Proof.Machine

/-! ### READ_ROW -/

/-- A STAGED row is pending (R49): a field of it differs from the same field of its ACTIVE row. -/
def WindowUnit.pending (u : WindowUnit) (i : Fin 24) : Bool := decide (u.staged[i] ≠ u.active[i])

/-- Some row is pending (R49). -/
def WindowUnit.anyPending (u : WindowUnit) : Bool := (List.finRange 24).any u.pending

/-- Slots in use, over every lane, that a test picks. -/
def State.countSlots (s : State) (p : Slot → Bool) : Nat :=
  (allLanes.map fun l => ((s.lane l).slots.filter p).length).sum

/-- Slots whose capture names a row and carries the current generation (R50). -/
def State.slotsCaptured (s : State) (i : Fin 24) : Nat :=
  s.countSlots fun q => q.capture.any fun c => c.row == i && c.generation == s.windows.generation

/-- Slots whose capture carries another generation (R50). -/
def State.earlierSlots (s : State) : Nat :=
  s.countSlots fun q => q.capture.any fun c => c.generation != s.windows.generation

/-- The words of the PORT row (R69). -/
def State.portWords (s : State) : List Word :=
  s.portRow.words
    ++ [natWord s.xlat.cache.length, natWord (allWalks.filter fun w => (s.walk w).isSome).length,
      natWord s.xlat.waiting.length]

/-- The words of an agent row (R2). -/
def State.agentWords (s : State) (l : Lane) : List Word := (s.agent l).words ++ (s.lane l).words

/-- The words of a WINDOWS row (R49). -/
def State.stagedWords (s : State) (i : Fin 24) : List Word :=
  (s.windows.staged[i]).words ++ [boolWord (s.windows.pending i)]

/-- The words of a WINDOWS_ACTIVE row (R50). -/
def State.activeWords (s : State) (i : Fin 24) : List Word :=
  (s.windows.active[i]).words ++ [natWord (s.slotsCaptured i), natWord s.earlierSlots]

/-- The runtime words of an area (R89). -/
def State.areaRuntime (s : State) (a : Fin 16) : List Word :=
  match s.areaLane a with
  | some l =>
    [natWord l.val, natWord (s.area a).writeOccupied, natWord (s.lane l).credit, natWord (s.area a).readReserved,
      natWord (s.area a).readFilled]
  | none => [16, 0, 0, 0, 0]

/-- The words of an area row (R89). -/
def State.areaWords (s : State) (a : Fin 16) : List Word := (s.area a).row.words ++ s.areaRuntime a

/-- The words of a class row (R108). -/
def State.classWords (s : State) (c : ClassNo) : List Word := (s.cls c).row.words ++ (s.cls c).runtimeWords

/-- The words of a route row (R143). -/
def State.routeWords (s : State) (i : Fin 24) : List Word :=
  (s.faults.routes[i]).words
    ++ [natWord (causeOfRow i).severity.rank, natWord (s.faults.log.filter fun r => r.report.cause.row == i).length]

/-- What READ_ROW finds (R164). -/
inductive RowRead where
  | badTable
  | badRow
  | row (words : List Word)
deriving DecidableEq, Repr

/-- A row of a table whose rows are numbered from 0. -/
def rowBelow (n row : Nat) (words : Fin n → List Word) : RowRead :=
  if h : row < n then .row (words ⟨row, h⟩) else .badRow

/-- A route row: rows are numbered by cause, from 1 (R143). -/
def routeRowAt (row : Nat) (words : Fin 24 → List Word) : RowRead :=
  match row with
  | 0 => .badRow
  | n + 1 => rowBelow 24 n words

/-- The words of a row by table id and row number (R164). -/
def State.readTable (s : State) (table row : Nat) : RowRead :=
  match table with
  | 0 => rowBelow 1 row fun _ => identityWords
  | 1 => rowBelow 1 row fun _ => s.portWords
  | 2 => rowBelow 16 row s.agentWords
  | 3 => rowBelow 24 row s.stagedWords
  | 4 => rowBelow 24 row s.activeWords
  | 5 => rowBelow 16 row s.areaWords
  | 6 => rowBelow 8 row s.classWords
  | 7 => routeRowAt row s.routeWords
  | _ => .badTable

/-- READ_ROW executed (R164). -/
def readRow (rq : MgmtRequest) (ws : List Word) (s : State) : State :=
  match s.readTable (wordAt ws 0) (wordAt ws 1) with
  | .badTable => replyPlain rq .badTable s
  | .badRow => replyPlain rq .badRow s
  | .row words => handReply rq .done 0 words s

/-- READ_ROW (R155, R164). -/
def execReadRow (lane : Byte) (tag : Tag) (payload : List Word) (s : State) : Host.Outcome State Fault Refusal :=
  let rq : MgmtRequest := ⟨laneOf lane, tag, 0x05⟩
  .next (takeMgmt rq (rowBad payload) (readRow rq payload) s)

/-! ### LOAD_ROW -/

/-- Settle a load (R165): a refusal with its status, one of LOCKED with LOCK_VIOLATION; or the load and DONE with a payload. -/
def settleLoad (rq : MgmtRequest) (refusal : Option MgmtStatus) (load : State → State) (payload : List Word)
    (s : State) : State :=
  match refusal with
  | some st =>
    if st == .locked then report { cause := .lockViolation, lane := some rq.lane } (replyPlain rq st s)
    else replyPlain rq st s
  | none => handReply rq .done 0 payload (load s)

/-- The refusals of R67. -/
def State.portRefusal (s : State) (row : Word) (ws : List Word) : Option MgmtStatus :=
  if row != 0 then some .badRow
  else if ws.length < 4 then some .badValue
  else if s.mgmt.locked then some .locked
  else if !portInRange ws then some .badValue
  else if 2 ^ 36 < wordAt ws 0 * 4096 + wordAt ws 1 * 8 then some .badValue
  else none

/-- A PORT load changes the table base or the entry count (R68). -/
def PortRow.moves (r q : PortRow) : Bool := r.tableBase != q.tableBase || r.entryCount != q.entryCount

/-- Replace the PORT row, with the invalidation of R68. -/
def putPort (r : PortRow) (s : State) : State :=
  if s.portRow.moves r then invalidateScope .all { s with portRow := r } else { s with portRow := r }

/-- The two counts of a PORT load's reply (R68). -/
def State.portCounts (s : State) (r : PortRow) : List Word :=
  if s.portRow.moves r then s.invalidationCounts .all else [0, 0]

/-- LOAD_ROW of the PORT row (R67, R68). -/
def loadPort (rq : MgmtRequest) (row : Word) (ws : List Word) (s : State) : State :=
  settleLoad rq (s.portRefusal row ws) (putPort (PortRow.ofWords ws)) (s.portCounts (PortRow.ofWords ws)) s

/-- LOAD_ROW_PORT (R155, R165, R67, R68). -/
def execLoadRowPort (lane : Byte) (tag : Tag) (row : Word) (words : List Word) (s : State) :
    Host.Outcome State Fault Refusal :=
  let rq : MgmtRequest := ⟨laneOf lane, tag, 0x06⟩
  .next (takeMgmt rq false (loadPort rq row words) s)

/-- Another enabled agent row names an area (R3, case 5). -/
def State.areaTaken (s : State) (l : Lane) (a : Fin 16) : Bool :=
  allLanes.any fun k => k != l && (s.agent k).enabled && (s.agent k).area == a

/-- The refusals of R3, for a lane's row. -/
def State.agentRefusal (s : State) (l : Lane) (ws : List Word) : Option MgmtStatus :=
  let r := AgentRow.ofWords ws
  if (s.lane l).session != .detached then some .rowInUse
  else if ws.length < 10 then some .badValue
  else if !agentInRange ws then some .badValue
  else if r.enabled && (r.maxOutstanding == 0 || r.quantum == 0) then some .badValue
  else if r.enabled && s.areaTaken l r.area then some .overlap
  else none

/-- LOAD_ROW of an agent row (R165, R3). -/
def loadAgents (rq : MgmtRequest) (row : Word) (ws : List Word) (s : State) : State :=
  if h : row.toNat < 16 then
    let l : Lane := ⟨row.toNat, h⟩
    settleLoad rq (s.agentRefusal l ws) (fun s => s.setAgent l (AgentRow.ofWords ws)) [] s
  else replyPlain rq .badRow s

/-- LOAD_ROW_AGENTS (R155, R165, R3). -/
def execLoadRowAgents (lane : Byte) (tag : Tag) (row : Word) (words : List Word) (s : State) :
    Host.Outcome State Fault Refusal :=
  let rq : MgmtRequest := ⟨laneOf lane, tag, 0x06⟩
  .next (takeMgmt rq false (loadAgents rq row words) s)

/-- The refusals of R47 after its case 1. -/
def State.windowRefusal (s : State) (i : Fin 24) (ws : List Word) : Option MgmtStatus :=
  let r := WindowRow.ofWords ws
  if ws.length < 10 then some .badValue
  else if s.mgmt.locked && ((s.windows.active[i]).guarded || wordAt ws 7 != 0) then some .locked
  else if !windowInRange ws then some .badValue
  else if r.enabled && !r.enableFits then some .badValue
  else none

/-- Replace a STAGED row (R47). -/
def putStaged (i : Fin 24) (r : WindowRow) (s : State) : State :=
  s.withWindows fun u => { u with staged := u.staged.set i r }

/-- LOAD_ROW of a WINDOWS row (R47, R48). -/
def loadWindows (rq : MgmtRequest) (row : Word) (ws : List Word) (s : State) : State :=
  if h : row.toNat < 24 then
    settleLoad rq (s.windowRefusal ⟨row.toNat, h⟩ ws) (putStaged ⟨row.toNat, h⟩ (WindowRow.ofWords ws)) [] s
  else replyPlain rq .badRow s

/-- LOAD_ROW_WINDOWS (R155, R165, R47). -/
def execLoadRowWindows (lane : Byte) (tag : Tag) (row : Word) (words : List Word) (s : State) :
    Host.Outcome State Fault Refusal :=
  let rq : MgmtRequest := ⟨laneOf lane, tag, 0x06⟩
  .next (takeMgmt rq false (loadWindows rq row words) s)

/-- Case 4 of R88: an enabled agent row names this area and its lane is not DETACHED. -/
def State.areaInUse (s : State) (a : Fin 16) : Bool :=
  allLanes.any fun l => (s.agent l).enabled && (s.agent l).area == a && (s.lane l).session != .detached

/-- Case 7 of R88: another enabled area row's units overlap a row's. -/
def State.areaOverlaps (s : State) (a : Fin 16) (r : AreaRow) : Bool :=
  (List.finRange 16).any fun b => b != a && (s.area b).row.enabled && r.overlaps (s.area b).row

/-- The refusals of R88 after its case 1. -/
def State.areaRefusal (s : State) (a : Fin 16) (ws : List Word) : Option MgmtStatus :=
  let r := AreaRow.ofWords ws
  if ws.length < 4 then some .badValue
  else if s.mgmt.locked then some .locked
  else if s.areaInUse a then some .rowInUse
  else if !areaInRange ws then some .badValue
  else if r.enabled && !r.enableFits then some .badValue
  else if r.enabled && s.areaOverlaps a r then some .overlap
  else none

/-- LOAD_ROW of an area row (R88). -/
def loadAreas (rq : MgmtRequest) (row : Word) (ws : List Word) (s : State) : State :=
  if h : row.toNat < 16 then
    let a : Fin 16 := ⟨row.toNat, h⟩
    settleLoad rq (s.areaRefusal a ws) (fun s => s.updArea a fun x => { x with row := AreaRow.ofWords ws }) [] s
  else replyPlain rq .badRow s

/-- LOAD_ROW_AREAS (R155, R165, R88). -/
def execLoadRowAreas (lane : Byte) (tag : Tag) (row : Word) (words : List Word) (s : State) :
    Host.Outcome State Fault Refusal :=
  let rq : MgmtRequest := ⟨laneOf lane, tag, 0x06⟩
  .next (takeMgmt rq false (loadAreas rq row words) s)

/-- The refusals of R107 after its case 1. -/
def classRefusal (ws : List Word) : Option MgmtStatus :=
  if ws.length < 7 then some .badValue
  else if !classInRange ws then some .badValue
  else if !(ClassRow.ofWords ws).modeFits then some .badValue
  else none

/-- LOAD_ROW of a class row (R107, R118). -/
def loadClasses (rq : MgmtRequest) (row : Word) (ws : List Word) (s : State) : State :=
  if h : row.toNat < 8 then
    settleLoad rq (classRefusal ws)
      (fun s => s.updClass ⟨row.toNat, h⟩ fun c => BudgetClass.reopened { c with row := ClassRow.ofWords ws }) [] s
  else replyPlain rq .badRow s

/-- LOAD_ROW_CLASSES (R155, R165, R107, R118). -/
def execLoadRowClasses (lane : Byte) (tag : Tag) (row : Word) (words : List Word) (s : State) :
    Host.Outcome State Fault Refusal :=
  let rq : MgmtRequest := ⟨laneOf lane, tag, 0x06⟩
  .next (takeMgmt rq false (loadClasses rq row words) s)

/-- The refusals of R143 after its case 1. -/
def State.routeRefusal (s : State) (ws : List Word) : Option MgmtStatus :=
  if ws.length < 2 then some .badValue
  else if s.mgmt.locked then some .locked
  else if !routeInRange ws then some .badValue
  else none

/-- Replace a route row; ALERT_N follows in the same change (R143, R146). -/
def putRoute (i : Fin 24) (r : RouteRow) (s : State) : State :=
  s.withFaults fun u => FaultUnit.driveAlert { u with routes := u.routes.set i r }

/-- LOAD_ROW of a route row, numbered by cause from 1 (R143). -/
def loadRoutes (rq : MgmtRequest) (row : Word) (ws : List Word) (s : State) : State :=
  if h : 1 ≤ row.toNat ∧ row.toNat ≤ 24 then
    settleLoad rq (s.routeRefusal ws) (putRoute ⟨row.toNat - 1, by omega⟩ (RouteRow.ofWords ws)) [] s
  else replyPlain rq .badRow s

/-- LOAD_ROW_ROUTES (R155, R165, R143). -/
def execLoadRowRoutes (lane : Byte) (tag : Tag) (row : Word) (words : List Word) (s : State) :
    Host.Outcome State Fault Refusal :=
  let rq : MgmtRequest := ⟨laneOf lane, tag, 0x06⟩
  .next (takeMgmt rq false (loadRoutes rq row words) s)

/-- LOAD_ROW by table id (R165): BAD_TABLE for IDENTITY, WINDOWS_ACTIVE and an id above 7. -/
def loadTable (rq : MgmtRequest) (table : Nat) (row : Word) (ws : List Word) (s : State) : State :=
  match table with
  | 1 => loadPort rq row ws s
  | 2 => loadAgents rq row ws s
  | 3 => loadWindows rq row ws s
  | 5 => loadAreas rq row ws s
  | 6 => loadClasses rq row ws s
  | 7 => loadRoutes rq row ws s
  | _ => replyPlain rq .badTable s

/-- LOAD_ROW (R155, R165): step 6 of R155 refuses a payload of fewer than two words. -/
def execLoadRow (lane : Byte) (tag : Tag) (payload : List Word) (s : State) : Host.Outcome State Fault Refusal :=
  let rq : MgmtRequest := ⟨laneOf lane, tag, 0x06⟩
  .next (takeMgmt rq (rowBad payload)
    (loadTable rq (wordAt payload 0) (payload.getD 1 0) (payload.drop 2)) s)

/-! ### COMMIT, INVALIDATE, LOCK -/

/-- Copy STAGED to ACTIVE and count it (R51). -/
def WindowUnit.commit (u : WindowUnit) : WindowUnit :=
  { u with active := u.staged, generation := u.generation + 1 }

/-- COMMIT executed (R51). -/
def commit (rq : MgmtRequest) (s : State) : State :=
  if s.windows.anyPending then
    handReply rq .done (s.windows.generation + 1) [] (s.withWindows WindowUnit.commit)
  else handReply rq .state s.windows.generation [] s

/-- COMMIT (R51, R155). -/
def execCommit (lane : Byte) (tag : Tag) (s : State) : Host.Outcome State Fault Refusal :=
  let rq : MgmtRequest := ⟨laneOf lane, tag, 0x07⟩
  .next (takeMgmt rq false (commit rq) s)

/-- INVALIDATE executed (R81). -/
def invalidate (rq : MgmtRequest) (ws : List Word) (s : State) : State :=
  match scopeOf ws with
  | some sc => handReply rq .done 0 (s.invalidationCounts sc) (invalidateScope sc s)
  | none => replyPlain rq .badValue s

/-- INVALIDATE (R81, R155). -/
def execInvalidate (lane : Byte) (tag : Tag) (payload : List Word) (s : State) : Host.Outcome State Fault Refusal :=
  let rq : MgmtRequest := ⟨laneOf lane, tag, 0x08⟩
  .next (takeMgmt rq false (invalidate rq payload) s)

/-- LOCK executed (R169). -/
def lock (rq : MgmtRequest) (s : State) : State :=
  if s.mgmt.locked then replyPlain rq .state s
  else if s.windows.anyPending then replyPlain rq .stagedPending s
  else replyPlain rq .done (s.withMgmt fun m => { m with locked := true })

/-- LOCK (R155, R169). -/
def execLock (lane : Byte) (tag : Tag) (s : State) : Host.Outcome State Fault Refusal :=
  let rq : MgmtRequest := ⟨laneOf lane, tag, 0x0D⟩
  .next (takeMgmt rq false (lock rq) s)

end Sys2Proof.Machine
end

