-- ==== Sys2Proof/Machine/FaultLog.lean ====
section
/-! DEFINITION. Reading and clearing the fault log (8.4): READ_FAULTS (R149) and CLEAR_FAULTS (R150). -/

namespace Sys2Proof.Machine

/-- The sequence number operand that R148 takes. -/
def numberAt (ws : List Word) : BitVec 16 := BitVec.ofNat 16 (wordAt ws 0)

/-- The kind-specific word of a READ_FAULTS or CLEAR_FAULTS reply (R182): a count and the incomplete marker; bytes 14
and 15 are 0 (log 34). -/
def countWord (n : Nat) (marker : Bool) : Word := quad (BitVec.ofNat 8 n) (if marker then 1 else 0) 0 0

/-- The records at or after a number, oldest first (R149). -/
def FaultUnit.recordsFrom (u : FaultUnit) (n : BitVec 16) : List FaultRecord := u.log.filter fun r => atOrAfter r.seq n

/-- The records at or before a number (R150). -/
def FaultUnit.recordsThrough (u : FaultUnit) (n : BitVec 16) : List FaultRecord :=
  u.log.filter fun r => atOrBefore r.seq n

/-- READ_FAULTS executed (R148, R149). -/
def readFaults (rq : MgmtRequest) (ws : List Word) (s : State) : State :=
  if numberBad ws then replyPlain rq .badValue s
  else
    let rs := s.faults.recordsFrom (numberAt ws)
    handReply rq .done (countWord rs.length s.faults.incomplete) (rs.flatMap FaultRecord.words) s

/-- READ_FAULTS (R149, R155). -/
def execReadFaults (lane : Byte) (tag : Tag) (payload : List Word) (s : State) : Host.Outcome State Fault Refusal :=
  let rq : MgmtRequest := ⟨laneOf lane, tag, 0x0B⟩
  .next (takeMgmt rq false (readFaults rq payload) s)

/-- Remove the records at or before a number and clear the incomplete marker; ALERT_N follows (R150). -/
def FaultUnit.clearThrough (u : FaultUnit) (n : BitVec 16) : FaultUnit :=
  FaultUnit.driveAlert { u with log := u.log.filter fun r => !atOrBefore r.seq n, incomplete := false }

/-- CLEAR_FAULTS executed (R148, R150). -/
def clearFaults (rq : MgmtRequest) (ws : List Word) (s : State) : State :=
  if numberBad ws then replyPlain rq .badValue s
  else
    handReply rq .done (countWord (s.faults.recordsThrough (numberAt ws)).length s.faults.incomplete) []
      (s.withFaults fun u => u.clearThrough (numberAt ws))

/-- CLEAR_FAULTS (R150, R155). -/
def execClearFaults (lane : Byte) (tag : Tag) (payload : List Word) (s : State) : Host.Outcome State Fault Refusal :=
  let rq : MgmtRequest := ⟨laneOf lane, tag, 0x0C⟩
  .next (takeMgmt rq false (clearFaults rq payload) s)

end Sys2Proof.Machine
end

