-- ==== Sys2Proof/Machine/Management.lean ====
section
/-! DEFINITION. The management engine's own operations (09_management_protocol.md): the claim (R156 to R160), STATUS (R168), unknown
operations, RESTART (R170 to R172), the final reply (R161). -/

namespace Sys2Proof.Machine

/-! ### The role -/

/-- CLAIM (R155 to R158): taken at step 3 while the part is not CLAIMED; from the manager lane it is replied STATE. -/
def execClaim (lane : Byte) (tag : Tag) (s : State) : Host.Outcome State Fault Refusal :=
  let rq : MgmtRequest := ⟨laneOf lane, tag, 0x01⟩
  .next (takeMgmt rq false (replyPlain rq .state) s)

/-- CONFIRM (R155 to R158): taken at step 3 while the part is not CLAIMED; from the manager lane it is replied STATE. -/
def execConfirm (lane : Byte) (tag : Tag) (s : State) : Host.Outcome State Fault Refusal :=
  let rq : MgmtRequest := ⟨laneOf lane, tag, 0x02⟩
  .next (takeMgmt rq false (replyPlain rq .state) s)

/-- CONFIRM_TIMER_EXPIRY (R157); the timer runs in CLAIM_PENDING alone (R154, R158). -/
def execConfirmTimerExpiry (s : State) : Host.Outcome State Fault Refusal :=
  .next (if s.mgmt.claim == .pending && s.mgmt.confirmTimer.isSome then unclaim s else s)

/-- RELEASE executed (R159). -/
def release (rq : MgmtRequest) (s : State) : State :=
  replyPlain rq .done (s.withMgmt fun m => { m with claim := .unclaimed, manager := none })

/-- RELEASE (R155, R159). -/
def execRelease (lane : Byte) (tag : Tag) (s : State) : Host.Outcome State Fault Refusal :=
  let rq : MgmtRequest := ⟨laneOf lane, tag, 0x03⟩
  .next (takeMgmt rq false (release rq) s)

/-- HANDOVER to a target lane (R160). -/
def handover (rq : MgmtRequest) (target : Lane) (s : State) : State :=
  if s.mgmt.manager == some target then replyPlain rq .state s
  else if (s.lane target).session != .active || !(s.agent target).manageCapable then replyPlain rq .notPermitted s
  else
    ((replyPlain rq .done s).withMgmt fun m => { m with manager := some target }).withFaults fun u =>
      u.queueNotice (.role rq.lane target)

/-- HANDOVER (R155, R160). -/
def execHandover (lane : Byte) (tag : Tag) (payload : List Word) (s : State) : Host.Outcome State Fault Refusal :=
  let rq : MgmtRequest := ⟨laneOf lane, tag, 0x04⟩
  .next (takeMgmt rq (handoverBad payload) (handover rq (laneAt payload 0)) s)

/-! ### STATUS and unknown operations -/

def Claim.code : Claim → Nat
  | .unclaimed => 0
  | .pending => 1
  | .claimed => 2

/-- Lanes that a test picks. -/
def State.countLanes (s : State) (p : LaneState → Bool) : Nat := (allLanes.filter fun l => p (s.lane l)).length

/-- The fourteen words of STATUS (R168). -/
def State.statusWords (s : State) : List Word :=
  [natWord s.mgmt.claim.code, natWord ((s.mgmt.manager.map (·.val)).getD 16), natWord s.mgmt.strapped.val,
    boolWord s.mgmt.locked, s.mgmt.restarts, s.windows.generation, natWord s.slotsInUse,
    natWord (s.countLanes fun r => r.session == .detached), natWord (s.countLanes fun r => r.session == .active),
    natWord (s.countLanes fun r => r.session == .suspended),
    natWord (s.countLanes fun r => r.session == .draining && r.drain == .answered),
    natWord (s.countLanes fun r => r.session == .draining && r.drain == .silent),
    natWord s.faults.log.length, boolWord s.faults.incomplete]

/-- STATUS executed (R168). -/
def status (rq : MgmtRequest) (s : State) : State := handReply rq .done 0 s.statusWords s

/-- STATUS (R155, R168). -/
def execStatus (lane : Byte) (tag : Tag) (s : State) : Host.Outcome State Fault Refusal :=
  let rq : MgmtRequest := ⟨laneOf lane, tag, 0x0F⟩
  .next (takeMgmt rq false (status rq) s)

/-- UNKNOWN_OPERATION (R155, step 6; R182). -/
def execUnknownOperation (lane : Byte) (tag : Tag) (code : Byte) (s : State) : Host.Outcome State Fault Refusal :=
  .next (takeMgmt ⟨laneOf lane, tag, code⟩ true (fun s => s) s)

/-! ### RESTART -/

/-- A notice is in transmission (R145, R152). -/
def State.noticeStarted (s : State) : Bool := s.link.tx.any fun x => x.source == .notice

/-- RESTART executed (R170, R152, R20): RESTARTING, the notice queue emptied, every lane SILENT, and the test of R171. -/
def restart (rq : MgmtRequest) (s : State) : State :=
  let t := s.withMgmt fun m => { m with op := some ⟨.restart, rq.lane, rq.tag, false⟩, stage := .lanes }
  let u := t.withFaults fun f => f.discardNotices (if s.noticeStarted then 1 else 0)
  restartProgress (forEach allLanes silenceNew u)

/-- RESTART (R155, R170). -/
def execRestart (lane : Byte) (tag : Tag) (s : State) : Host.Outcome State Fault Refusal :=
  let rq : MgmtRequest := ⟨laneOf lane, tag, 0x0E⟩
  .next (takeMgmt rq false (restart rq) s)

/-- RESTART_STAGE_MEMORY (R171): LANES passes to MEMORY when every lane is DETACHED; the change that detaches the last lane
does so itself (log 1). -/
def execRestartStageMemory (s : State) : Host.Outcome State Fault Refusal :=
  .next (if s.mgmt.stage == .lanes && s.allDetached then restartProgress s else s)

/-- RESTART_FINAL_CHANGE (R171, R172); the change that meets its condition makes it itself (log 1). -/
def execRestartFinalChange (s : State) : Host.Outcome State Fault Refusal := .next (restartMemory s)

/-- FINAL_REPLY_HANDED (R161); the change that empties the reply slot hands it itself (log 1). -/
def execFinalReplyHanded (s : State) : Host.Outcome State Fault Refusal := .next (settleOp s)

end Sys2Proof.Machine
end

