-- ==== Sys2Proof/Machine/Transmit.lean ====
section
/-! DEFINITION. The transmitter (10.3): the choice of the next item (R178), the parcels sent (R180 to R183), and the effects of the
start and the end of a transmission (R179). -/

namespace Sys2Proof.Machine

/-! ### The parcels sent -/

/-- A part-to-agent parcel (R180); the tag is a tag byte. -/
def partParcel (kind : Byte) (lane : Lane) (tag : Tag) (number : BitVec 8) (status : Byte) : Parcel where
  kind := kind
  lane := BitVec.ofNat 8 lane.val
  tag := tag.setWidth 8
  number := number
  length := 0
  status := status
  address := 0
  kindWord := 0
  payload := []

/-- A MGMT_REPLY (R162, R182): the operation code in header byte 4; byte 5, to which R180 and R182 give no value, is 0 (log 35). -/
def MgmtReply.parcel (r : MgmtReply) : Parcel :=
  { partParcel 0x87 r.lane r.tag r.number r.status.code with
    length := r.code.setWidth 16
    kindWord := r.kindWord
    payload := bytesOfWords r.payload }

def NoticeBody.subtype : NoticeBody → Byte
  | .fault _ _ => 0
  | .role _ _ => 1

def NoticeBody.words : NoticeBody → List Word
  | .fault record _ => record.words
  | .role old new => [natWord old.val, natWord new.val]

def NoticeBody.logged : NoticeBody → Bool
  | .fault _ logged => logged
  | .role _ _ => false

/-- A NOTICE addressed to a lane, with that lane's session number as it stands at the start (R145, R180, R183; log 33); its
tag byte is a free value (log 13), and bytes 14 and 15 are 0 (log 34). -/
def Notice.parcel (n : Notice) (lane : Lane) (number : BitVec 8) (free : Nat) : Parcel :=
  { partParcel 0x88 lane (Config.freeTag free) number n.body.subtype with
    kindWord := quad (if n.missed then 1 else 0) (if n.body.logged then 1 else 0) 0 0
    payload := bytesOfWords n.body.words }

/-- A REFUSAL (R25, R177). -/
def RefusalItem.parcel (x : RefusalItem) : Parcel :=
  { partParcel 0x83 x.lane x.tag x.number x.code.code with address := x.address }

/-- A CREDIT with the lane's session number at its start (R103); its tag byte is a free value (log 13). -/
def creditParcel (lane : Lane) (number : BitVec 8) (units : Nat) (free : Nat) : Parcel :=
  { partParcel 0x84 lane (Config.freeTag free) number 0 with kindWord := natWord units }

/-- The slot was decoded against a SINK row (R27). -/
def Slot.isSink (q : Slot) : Bool := q.capture.any fun c => c.kind == .sink

/-- The payload of a slot's answer (R32, R36, R98): a READ's data, or as many zero bytes for a SINK. -/
def Slot.payload (q : Slot) (m : Memory) (free : Nat) : List Byte :=
  match q.dir with
  | .read =>
    if (q.status.getD .ok).carriesData then
      if q.isSink then List.replicate q.length 0 else q.data m free
    else []
  | .write => []

/-- READ_DATA or WRITE_ACK (R180). -/
def Dir.answerKind : Dir → Byte
  | .read => 0x85
  | .write => 0x86

/-- The answer of a slot (R36). -/
def Slot.answer (q : Slot) (lane : Lane) (m : Memory) (free : Nat) : Parcel :=
  { partParcel q.dir.answerKind lane q.tag q.number (q.status.getD .ok).code with
    length := BitVec.ofNat 16 q.length
    address := q.address
    payload := q.payload m free }

/-! ### The start of a transmission (R178, R179) -/

/-- The transmitter takes a parcel. -/
def send (source : TxSource) (p : Parcel) (s : State) : State :=
  s.withLink fun k => { k with tx := some ⟨source, p⟩ }

/-- The lane that notices are addressed to (R145): the manager lane while CLAIMED. -/
def State.noticeLane (s : State) : Option Lane := if s.mgmt.claim == .claimed then s.mgmt.manager else none

/-- A CREDIT of the lane waits and is eligible (R9, R103, R178). -/
def State.creditEligible (s : State) (l : Lane) : Bool :=
  (s.lane l).session == .active && (s.lane l).joinReplySent && (s.lane l).creditWaiting.isSome

/-- The lane whose CREDIT is chosen (R178). -/
def State.creditChoice (s : State) : Option Lane := (lanesAfter s.link.lastCredit).find? s.creditEligible

/-- The lane whose stream is chosen (R178). -/
def State.streamChoice (s : State) : Option Lane :=
  (lanesAfter s.link.lastStream).find? fun l => !(s.lane l).stream.isEmpty

/-- Start the waiting CREDIT of a lane: a later grant makes a new one (R103). -/
def startCredit (l : Lane) (s : State) : State :=
  let p := creditParcel l (s.lane l).number ((s.lane l).creditWaiting.getD 0) s.freeCount
  (send (.credit l) p ((s.updLane l fun r => { r with creditWaiting := none }).withLink fun k =>
      { k with lastCredit := l })).useFree freeStride

/-- The parcel of a stream's oldest item; an answer's slot becomes SENDING (R37). -/
def startItem (l : Lane) (x : StreamItem) (s : State) : State :=
  match x with
  | .answer tag =>
    match s.slot? l tag with
    | some q =>
      (send (.stream l) (q.answer l s.staging s.freeCount)
          (s.updSlot l tag fun q => { q with stage := .sending })).useFree freeStride
    | none => s
  | .joinReply st tag number => send (.stream l) (partParcel 0x81 l tag number st.code) s
  | .leaveReply st tag number => send (.stream l) (partParcel 0x82 l tag number st.code) s
  | .closing tag number => send (.stream l) (partParcel 0x82 l tag number LeaveStatus.ok.code) s

/-- Start the oldest item of a lane's stream (R178). -/
def startStream (l : Lane) (s : State) : State :=
  match (s.lane l).stream.head? with
  | some x => startItem l x (s.withLink fun k => { k with lastStream := l })
  | none => s

/-- The choice below the notice queue (R178). -/
def startBelow (s : State) : State :=
  match s.link.refusals.head? with
  | some x => send .refusal x.parcel s
  | none =>
    match s.creditChoice with
    | some l => startCredit l s
    | none =>
      match s.streamChoice with
      | some l => startStream l s
      | none => s

/-- The choice below the reply slot: the oldest notice is sent to the manager, or every notice is removed unsent when the
part is not CLAIMED, and the choice is made again (R145, R178). -/
def startNotice (s : State) : State :=
  match s.noticeLane with
  | some l =>
    match s.faults.notices.head? with
    | some n => (send .notice (n.parcel l (s.lane l).number s.freeCount) s).useFree freeStride
    | none => startBelow s
  | none => startBelow (s.withFaults fun u => u.discardNotices 0)

/-- The choice of R178. -/
def startNext (s : State) : State :=
  match s.mgmt.reply with
  | some r => send .mgmtReply r.parcel s
  | none => startNotice s

/-- The link is UP and the transmitter is free (R178). -/
def State.mayTransmit (s : State) : Bool := s.linkUp && s.link.tx.isNone

/-- TRANSMIT_START (R178, R179). -/
def execTransmitStart (s : State) : Host.Outcome State Fault Refusal :=
  .next (if s.mayTransmit then startNext s else s)

/-! ### The end of a transmission (R179) -/

/-- The end effects of a stream item: an answer's slot is freed (R37), a JOIN_REPLY OK lets the lane's CREDIT go (R9). -/
def endItem (l : Lane) (x : StreamItem) (s : State) : State :=
  match x with
  | .answer tag => afterLeaving l (freeSlot l tag s)
  | .joinReply st _ _ => if st == .ok then s.updLane l fun r => { r with joinReplySent := true } else s
  | .leaveReply _ _ _ => s
  | .closing _ _ => s

/-- The oldest item leaves a lane's stream (R10). -/
def endStream (l : Lane) (s : State) : State :=
  match (s.lane l).stream with
  | [] => s
  | x :: rest => endItem l x (s.updLane l fun r => { r with stream := rest })

/-- The item leaves its source, with its owner's end effects (R179). -/
def endSource (source : TxSource) (s : State) : State :=
  match source with
  | .mgmtReply => settleOp (s.withMgmt fun m => { m with reply := none })
  | .notice => s.withFaults fun u => { u with notices := u.notices.tail }
  | .refusal => s.withLink fun k => { k with refusals := k.refusals.tail }
  | .credit _ => s
  | .stream l => endStream l s

/-- The transmission ends and the transmitter is free (R178, R179). -/
def transmissionEnd (s : State) : State :=
  match s.link.tx with
  | some x => endSource x.source (s.withLink fun k => { k with tx := none })
  | none => s

/-- TRANSMISSION_END (R179). -/
def execTransmissionEnd (s : State) : Host.Outcome State Fault Refusal := .next (transmissionEnd s)

end Sys2Proof.Machine
end

