-- ==== Sys2Proof/Machine/Time.lean ====
section
/-! DEFINITION. The passing of 1 µs (00_scope.md, Time; log 3): the timebase and every running timer move, and the timers that reach
their end expire (log 5). -/

namespace Sys2Proof.Machine

/-- One µs less of a running timer. -/
def countDown (t : Option Nat) : Option Nat := t.map fun n => n - 1

/-- A timer has reached its end. -/
def expired (t : Option Nat) : Bool := t == some 0

def BudgetClass.countDown (c : BudgetClass) : BudgetClass :=
  { c with windowTimer := Machine.countDown c.windowTimer, slotTimer := Machine.countDown c.slotTimer }

def IdState.countDown : IdState → IdState
  | .free => .free
  | .inUse owner timer txn => .inUse owner (timer - 1) txn
  | .quarantined => .quarantined

/-- The timebase and every running timer move by 1 µs (R109, R110, R123, R139, R154). -/
def countAll (s : State) : State :=
  { s with
    timebase := s.timebase + 1
    mgmt := { s.mgmt with confirmTimer := countDown s.mgmt.confirmTimer }
    classes := mapVec BudgetClass.countDown s.classes
    port := { s.port with ids := mapVec IdState.countDown s.port.ids } }

/-- The response timer of an id that has reached its end expires (R126). -/
def expireId (i : MemId) (s : State) : State :=
  match s.memId i with
  | .inUse _ 0 _ => responseTimeout i s
  | .inUse _ (_ + 1) _ => s
  | .free => s
  | .quarantined => s

/-- A class's window end, then its slot end, where their timers have reached their end (R109, R110). -/
def expireClass (n : ClassNo) (s : State) : State :=
  s.updClass n fun c =>
    let d := if expired c.windowTimer then c.windowEnd else c
    if expired d.slotTimer then d.slotEnd else d

/-- The confirm timer expires (R157). -/
def expireConfirm (s : State) : State :=
  if s.mgmt.claim == .pending && expired s.mgmt.confirmTimer then unclaim s else s

/-- One µs passes: the confirm timer, then the ids and the classes in order (log 5). -/
def tick (s : State) : State :=
  forEach allClasses expireClass (forEach allIds expireId (expireConfirm (countAll s)))

end Sys2Proof.Machine
end

