-- ==== Sys2Proof/Machine/Dispatch.lean ====
section
/-! DEFINITION. One arm for each command of spec/opcode_table.json: one direct call of its meaning. -/

namespace Sys2Proof.Machine

def exec (i : Instr) (s : State) : Host.Outcome State Fault Refusal :=
  match i with
  | .lineReset straps => Sys2Proof.Machine.execLineReset straps s
  | .signalPresent => Sys2Proof.Machine.execSignalPresent s
  | .goodMarker => Sys2Proof.Machine.execGoodMarker s
  | .damagedMarker => Sys2Proof.Machine.execDamagedMarker s
  | .lossOfSignal => Sys2Proof.Machine.execLossOfSignal s
  | .parcelDropped frame => Sys2Proof.Machine.execParcelDropped frame s
  | .join lane tag identifier => Sys2Proof.Machine.execJoin lane tag identifier s
  | .leave lane tag number => Sys2Proof.Machine.execLeave lane tag number s
  | .read lane tag number address length => Sys2Proof.Machine.execRead lane tag number address length s
  | .write lane tag number address length data => Sys2Proof.Machine.execWrite lane tag number address length data s
  | .claim lane tag => Sys2Proof.Machine.execClaim lane tag s
  | .confirm lane tag => Sys2Proof.Machine.execConfirm lane tag s
  | .confirmTimerExpiry => Sys2Proof.Machine.execConfirmTimerExpiry s
  | .release lane tag => Sys2Proof.Machine.execRelease lane tag s
  | .handover lane tag payload => Sys2Proof.Machine.execHandover lane tag payload s
  | .readRow lane tag payload => Sys2Proof.Machine.execReadRow lane tag payload s
  | .loadRow lane tag payload => Sys2Proof.Machine.execLoadRow lane tag payload s
  | .loadRowPort lane tag row words => Sys2Proof.Machine.execLoadRowPort lane tag row words s
  | .loadRowAgents lane tag row words => Sys2Proof.Machine.execLoadRowAgents lane tag row words s
  | .loadRowWindows lane tag row words => Sys2Proof.Machine.execLoadRowWindows lane tag row words s
  | .loadRowAreas lane tag row words => Sys2Proof.Machine.execLoadRowAreas lane tag row words s
  | .loadRowClasses lane tag row words => Sys2Proof.Machine.execLoadRowClasses lane tag row words s
  | .loadRowRoutes lane tag row words => Sys2Proof.Machine.execLoadRowRoutes lane tag row words s
  | .commit lane tag => Sys2Proof.Machine.execCommit lane tag s
  | .invalidate lane tag payload => Sys2Proof.Machine.execInvalidate lane tag payload s
  | .sessionSuspend lane tag payload => Sys2Proof.Machine.execSessionSuspend lane tag payload s
  | .sessionResume lane tag payload => Sys2Proof.Machine.execSessionResume lane tag payload s
  | .sessionReset lane tag payload => Sys2Proof.Machine.execSessionReset lane tag payload s
  | .throttleStart lane tag payload => Sys2Proof.Machine.execThrottleStart lane tag payload s
  | .throttleRelease lane tag payload => Sys2Proof.Machine.execThrottleRelease lane tag payload s
  | .readFaults lane tag payload => Sys2Proof.Machine.execReadFaults lane tag payload s
  | .clearFaults lane tag payload => Sys2Proof.Machine.execClearFaults lane tag payload s
  | .lock lane tag => Sys2Proof.Machine.execLock lane tag s
  | .restart lane tag => Sys2Proof.Machine.execRestart lane tag s
  | .status lane tag => Sys2Proof.Machine.execStatus lane tag s
  | .unknownOperation lane tag code => Sys2Proof.Machine.execUnknownOperation lane tag code s
  | .grant ids => Sys2Proof.Machine.execGrant ids s
  | .memoryResponse id status beats => Sys2Proof.Machine.execMemoryResponse id status beats s
  | .responseTimeout id => Sys2Proof.Machine.execResponseTimeout id s
  | .windowEnd cls => Sys2Proof.Machine.execWindowEnd cls s
  | .slotEnd cls => Sys2Proof.Machine.execSlotEnd cls s
  | .transmitStart => Sys2Proof.Machine.execTransmitStart s
  | .transmissionEnd => Sys2Proof.Machine.execTransmissionEnd s
  | .laneDetached lane => Sys2Proof.Machine.execLaneDetached lane s
  | .finalReplyHanded => Sys2Proof.Machine.execFinalReplyHanded s
  | .restartStageMemory => Sys2Proof.Machine.execRestartStageMemory s
  | .restartFinalChange => Sys2Proof.Machine.execRestartFinalChange s

end Sys2Proof.Machine
end

