-- ==== Sys2Proof/Safety.lean ====
section
/-! DEFINITION. What it means for a state of the part to be sound: the laws of the device that the spec's rules own and that the
statements say every step keeps; and the words the statements are written in. -/

namespace Sys2Proof.Machine

/-- ALERT_N is low exactly while the log holds a record whose cause's route is LINE (R146). -/
abbrev AlertFollowsLog (s : State) : Prop := s.faults.alert = s.faults.lineInLog

/-- While CLAIMED there is exactly one manager lane, otherwise none (R158); the confirm timer runs in CLAIM_PENDING alone
(R154, R157, R158). -/
abbrev RoleLaw (s : State) : Prop :=
  (s.mgmt.claim = .claimed ↔ s.mgmt.manager.isSome) ∧ (s.mgmt.claim = .pending ↔ s.mgmt.confirmTimer.isSome)

/-- The capacities of the log (R141), the notice queue (R145), the refusal queue (R177), the cache (R70) and the request table
(R22, R23). -/
abbrev WithinCapacity (s : State) : Prop :=
  s.faults.log.length ≤ 8 ∧ s.faults.notices.length ≤ 4 ∧ s.link.refusals.length ≤ 16 ∧ s.xlat.cache.length ≤ 32
    ∧ (allLanes.map fun l => (s.lane l).slots.length).sum ≤ 64

/-- No entry index stands twice among the cache, the walk slots and the waiting list (R73, R80). -/
abbrev IndexLaw (s : State) : Prop :=
  (s.xlat.cache.map (·.index) ++ (allWalks.filterMap s.walk).map (·.index) ++ s.xlat.waiting.map (·.index)).Nodup

/-- The staging storage is in canonical form. -/
abbrev StagingCanonical (s : State) : Prop := Memory.wf s.staging = true

/-- A drain kind in DRAINING alone (R2, R5), and a closing reply owed in a drain of kind ANSWERED alone (R12, R17). -/
abbrev LaneState.drainLaw (r : LaneState) : Prop :=
  (r.session = .draining ↔ r.drain ≠ .none) ∧ (r.closingOwed.isSome ↔ r.drain = .answered)

abbrev DrainLaw (s : State) : Prop := ∀ l, (s.lane l).drainLaw

/-- A DRAINING lane has a slot in its list: a drain whose list is empty closes in the same change (R12, R18, R23). -/
abbrev DrainingLaw (s : State) : Prop := ∀ l, (s.lane l).session = .draining → (s.lane l).slots ≠ []

/-- An OPEN class has no holds left and no slot used (R108). -/
abbrev BudgetClass.openLaw (c : BudgetClass) : Prop := c.holding = false → c.holdsLeft = 0 ∧ c.slotUsed = 0

abbrev OpenLaw (s : State) : Prop := ∀ c, (s.cls c).openLaw

/-- The tags of a lane's list, oldest first (R23). -/
def LaneState.tags (r : LaneState) : List Tag := r.slots.map (·.tag)

/-- No two slots of one list hold the same tag (R23). -/
abbrev TagLaw (s : State) : Prop := ∀ l, (s.lane l).tags.Nodup

/-- While the link is not UP nothing is in transmission, the refusal queue and the reply slot are empty, and an operation in
progress is forfeit (R161, R162, R174). -/
abbrev DownLaw (s : State) : Prop :=
  s.linkUp = false →
    s.link.tx = none ∧ s.link.refusals = [] ∧ s.mgmt.reply = none ∧ (s.mgmt.op.isSome → s.mgmt.forfeit = true)

/-- No id is IN_USE, and every walk slot is FREE, or READY with its index in range and no id FREE (R171). -/
def State.memoryAtRest (s : State) : Prop :=
  (∀ i owner timer txn, s.memId i ≠ .inUse owner timer txn)
    ∧ ∀ w x, s.walk w = some x →
        x.reading = false ∧ x.index < s.portRow.entryCount ∧ ∀ i, s.memId i ≠ .free

/-- While RESTARTING the operation in progress is RESTART, not ended, and every lane is DETACHED or DRAINING SILENT (R20, R161);
in LANES a lane is not DETACHED, and in MEMORY every lane is and the memory port does not rest (R171). -/
abbrev RestartLaw (s : State) : Prop :=
  (s.mgmt.stage ≠ .none →
    (∃ m tag, s.mgmt.op = some ⟨.restart, m, tag, false⟩)
      ∧ ∀ l, (s.lane l).session = .detached ∨ ((s.lane l).session = .draining ∧ (s.lane l).drain = .silent))
    ∧ (s.mgmt.stage = .lanes → ∃ l, (s.lane l).session ≠ .detached)
    ∧ (s.mgmt.stage = .memory → (∀ l, (s.lane l).session = .detached) ∧ ¬s.memoryAtRest)

/-- A SESSION RESET that has not ended waits on a lane that is DRAINING SILENT with a slot in its list (R16, R18). -/
abbrev ResetLaw (s : State) : Prop :=
  ∀ l m tag, s.mgmt.op = some ⟨.sessionReset l, m, tag, false⟩ →
    (s.lane l).session = .draining ∧ (s.lane l).drain = .silent ∧ (s.lane l).slots ≠ []

/-- While locked, a window row that is protected in either copy is the same in both (R48). -/
abbrev LockedWindows (s : State) : Prop :=
  s.mgmt.locked = true →
    ∀ i : Fin 24, (s.windows.active[i]).guarded = true ∨ (s.windows.staged[i]).guarded = true →
      s.windows.staged[i] = s.windows.active[i]

/-- What the lock keeps from one state to a later one (R169): the lock, the PORT, AREAS and ROUTES rows and the protected
ACTIVE rows. -/
abbrev LockKept (s t : State) : Prop :=
  t.mgmt.locked = true ∧ t.portRow = s.portRow ∧ t.faults.routes = s.faults.routes
    ∧ (∀ a, (t.area a).row = (s.area a).row)
    ∧ ∀ i : Fin 24, (s.windows.active[i]).guarded = true → t.windows.active[i] = s.windows.active[i]

/-! ### The law of the accounts -/

/-- Units held by the slots of a direction, of those that a test picks. -/
def unitsHeld (dir : Dir) (p : HeldUnit → Bool) (qs : List Slot) : Nat :=
  ((qs.filter fun q => q.dir == dir).map fun q => (q.held.filter p).length).sum

/-- The tag of an answer in a response stream. -/
def StreamItem.answers : StreamItem → Option Tag
  | .answer tag => some tag
  | .joinReply _ _ _ => none
  | .leaveReply _ _ _ => none
  | .closing _ _ => none

/-- The piece that an IN_USE id answers to, with its transaction's direction (R121). -/
def IdState.piece? : IdState → Option (PieceRef × Dir)
  | .inUse (.piece p) _ txn => some (p, txn.dir)
  | .inUse (.walk _) _ _ => none
  | .free => none
  | .quarantined => none

/-- A lane that is DETACHED has no slot, no ISSUED request and no credit (R18); any other has an enabled agent row; and two
enabled rows name two areas (R3, R6). -/
abbrev LaneLaw (s : State) : Prop :=
  (∀ l, (s.lane l).session = .detached → (s.lane l).slots = [] ∧ (s.lane l).issued = 0 ∧ (s.lane l).credit = 0)
    ∧ (∀ l, (s.lane l).session ≠ .detached → (s.agent l).enabled = true)
    ∧ ∀ l k, (s.agent l).enabled = true → (s.agent k).enabled = true → (s.agent l).area = (s.agent k).area → l = k

/-- The issued count is the number of ISSUED slots, and at most max outstanding (R30). -/
abbrev IssuedLaw (s : State) : Prop :=
  ∀ l, (s.lane l).issued = ((s.lane l).slots.filter fun q => q.stage == .issued).length
    ∧ (s.lane l).issued ≤ (s.agent l).maxOutstanding

/-- A stream holds at most one answer, that of the head of the list, which is COMPLETE or SENDING (R10, R35); in transmission it
is SENDING (R37). -/
abbrev StreamLaw (s : State) : Prop :=
  (∀ l, ((s.lane l).stream.filterMap StreamItem.answers).length ≤ 1
    ∧ ∀ tag ∈ (s.lane l).stream.filterMap StreamItem.answers, ∃ q ∈ (s.lane l).slots.head?.toList,
        q.tag = tag ∧ (q.stage = .complete ∨ q.stage = .sending))
    ∧ ∀ x ∈ s.link.tx.toList, ∀ l, x.source = .stream l → (s.lane l).stream ≠ []
      ∧ ∀ tag ∈ ((s.lane l).stream.head?.bind StreamItem.answers).toList, ∃ q ∈ (s.lane l).slots,
          q.tag = tag ∧ q.stage = .sending

/-- The waiters of the walk slots and of the waiting list. -/
def State.allWaiters (s : State) : List PieceRef :=
  (allWalks.filterMap s.walk).flatMap (·.waiters) ++ s.xlat.waiting.flatMap (·.waiters)

/-- A waiter is a WAITING piece of a TRANSLATING slot, and waits once; an index of the waiting list has a waiter (R28, R73, R75). -/
abbrev WaiterLaw (s : State) : Prop :=
  s.allWaiters.Nodup
    ∧ (∀ p ∈ s.allWaiters, ∃ q ∈ (s.lane p.lane).slots, q.tag = p.tag ∧ q.stage = .translating
      ∧ ∃ x ∈ q.pieces[p.place]?.toList, x.xlat = .waiting)
    ∧ ∀ e ∈ s.xlat.waiting, e.waiters ≠ []

/-- An id IN_USE for a piece is the id of a PENDING piece of an ISSUED slot of its direction (R31, R121, R123). -/
abbrev IdLaw (s : State) : Prop :=
  ∀ i, ∀ y ∈ (s.memId i).piece?.toList, ∃ q ∈ (s.lane y.1.lane).slots, q.tag = y.1.tag ∧ q.stage = .issued ∧ q.dir = y.2
    ∧ ∃ x ∈ q.pieces[y.1.place]?.toList, x.status = .pending ∧ x.memId = some i

/-- The slots of a lane hold different units, a WRITE's in the write share and a READ's in the read share of the lane's area, and
a READ that has not issued holds none (R87, R91, R95). -/
abbrev UnitLaw (s : State) : Prop :=
  ∀ l, let row := (s.area (s.agent l).area).row
    ((s.lane l).slots.flatMap fun q => q.held.map (·.unit)).Nodup
      ∧ ∀ q ∈ (s.lane l).slots,
        (q.dir = .write → ∀ u ∈ q.held, row.firstUnit ≤ u.unit ∧ u.unit < row.firstUnit + row.writeUnits)
        ∧ (q.dir = .read → ∀ u ∈ q.held,
            row.firstUnit + row.writeUnits ≤ u.unit ∧ u.unit < row.firstUnit + row.writeUnits + row.readUnits)
        ∧ (q.dir = .read → q.stage = .translating ∨ q.stage = .queued → q.held = [])

/-- The counts of an area are the units that its joined lane's slots hold, with write occupied plus credit committed within the
write share (R91) and read reserved plus read filled within the read share (R94); an area of no joined lane has counts 0
(R18). -/
abbrev CountLaw (s : State) : Prop :=
  (∀ l, (s.lane l).session ≠ .detached →
    let a := s.area (s.agent l).area
    let qs := (s.lane l).slots
    a.writeOccupied = unitsHeld .write (fun _ => true) qs ∧ a.readReserved = unitsHeld .read (fun u => !u.filled) qs
      ∧ a.readFilled = unitsHeld .read (·.filled) qs ∧ a.writeOccupied + (s.lane l).credit ≤ a.row.writeUnits
      ∧ a.readReserved + a.readFilled ≤ a.row.readUnits)
    ∧ ∀ a, (∀ l, (s.lane l).session ≠ .detached → (s.agent l).area ≠ a) →
        (s.area a).writeOccupied = 0 ∧ (s.area a).readReserved = 0 ∧ (s.area a).readFilled = 0

/-- The accounts of the part are exact: the issued counts, and the counts of every area with the credit committed (R30, R91, R94),
together with the laws of the lists, streams, waiters, ids and units that make them so. -/
structure AccountLaw (s : State) : Prop where
  tags : TagLaw s
  lanes : LaneLaw s
  issued : IssuedLaw s
  streams : StreamLaw s
  indexes : IndexLaw s
  waiters : WaiterLaw s
  ids : IdLaw s
  units : UnitLaw s
  counts : CountLaw s

/-! ### Words of the statements -/

/-- A MGMT parcel from this lane passes steps 1 to 5 of R155: the link is UP, the reply slot is empty, the part is CLAIMED
with this lane as manager, no operation is in progress and the part is not RESTARTING. -/
structure State.ready (s : State) (l : Lane) : Prop where
  up : s.link.state = .up
  slot : s.mgmt.reply = none
  claimed : s.mgmt.claim = .claimed
  manager : s.mgmt.manager = some l
  noOp : s.mgmt.op = none
  stage : s.mgmt.stage = .none

/-- The state in which an operation that has passed R155 is executed: the forfeit flag is cleared (R161). -/
def State.taken (s : State) : State := { s with mgmt := { s.mgmt with forfeit := false } }

/-- A state with a reply handed to the management reply slot, with the lane's session number as it stands (R162). -/
def State.replied (s : State) (l : Lane) (tag : Tag) (code : Byte) (st : MgmtStatus) (kindWord : Word)
    (payload : List Word) : State :=
  { s with mgmt := { s.mgmt with reply := some ⟨l, tag, (s.lane l).number, code, st, kindWord, payload⟩ } }

/-- The outcome of the first case of a rule's table that holds; none when no case holds. -/
def firstCase {α : Type} : List (Bool × α) → Option α
  | [] => none
  | c :: cs => if c.1 then some c.2 else firstCase cs

/-- A refused LOAD_ROW (R165): its status is replied, and LOCKED also reports LOCK_VIOLATION with the request's lane. -/
def State.loadRefused (s : State) (l : Lane) (tag : Tag) (st : MgmtStatus) : State :=
  if st = .locked then report { cause := .lockViolation, lane := some l } (s.taken.replied l tag 0x06 st 0 [])
  else s.taken.replied l tag 0x06 st 0 []

/-- A parcel from this lane meets no pending claim of its own (R157). -/
abbrev State.noClaimOf (s : State) (l : Lane) : Prop := ¬(s.mgmt.claim = .pending ∧ s.mgmt.strapped = l)

/-- The claim as a parcel of the strapped lane leaves it (R157). -/
def State.claimEnded (s : State) : State :=
  { s with mgmt := { s.mgmt with claim := .unclaimed, confirmTimer := none } }

/-- The lane that a parcel command's header names (R176); none for the other commands. -/
def parcelLane (c : Instr) : Option Lane := (instrParcel c).map fun p => laneOf p.lane

/-- The lane, tag and operation code of a MGMT parcel command (R182); none for the other commands. -/
def mgmtOf (c : Instr) : Option MgmtRequest :=
  match instrParcel c with
  | some p =>
    if p.kind = 0x05 then some ⟨laneOf p.lane, p.tag.extractLsb' 0 4, p.length.extractLsb' 0 8⟩ else none
  | none => none

/-- Word `k` of a payload as a number. -/
def word (ws : List Word) (k : Nat) : Nat := (ws.getD k 0).toNat

/-- A record of a lane replaced. -/
def State.setLane (s : State) (l : Lane) (r : LaneState) : State := { s with lanes := s.lanes.set l r }

/-- A class's record replaced. -/
def State.setClass (s : State) (c : ClassNo) (x : BudgetClass) : State := { s with classes := s.classes.set c x }

/-- How many lanes after `last`, in lane order wrapping from 15 to 0, a lane comes: 0 for the next one (R131, R178). -/
def lanesPast (last l : Lane) : Nat := (l.val + 15 - last.val) % 16

/-- A lane's record with an item at the tail of its response stream (R10). -/
def LaneState.handed (r : LaneState) (x : StreamItem) : LaneState := { r with stream := r.stream ++ [x] }

/-- A READ or WRITE parcel from this lane passes checks 1 to 8 of R24, the payload length of a WRITE apart; it meets no
pending claim of its own lane. -/
structure State.accepting (s : State) (l : Lane) (tag : Tag) (number : Byte) (length : BitVec 16) : Prop where
  up : s.link.state = .up
  noClaim : s.noClaimOf l
  stage : s.mgmt.stage = .none
  active : (s.lane l).session = .active
  number : number = (s.lane l).number
  notEmpty : 0 < length.toNat
  fits : length.toNat ≤ 256
  tagFree : ∀ q ∈ (s.lane l).slots, q.tag ≠ tag
  room : (allLanes.map fun k => (s.lane k).slots.length).sum < 64

/-- The state after a refused request (R25, R177): its REFUSAL joins the queue or is lost with REFUSAL_LOST, and the fault of
the check is taken first (log 6). -/
def State.requestRefused (s : State) (l : Lane) (tag : Tag) (address : BitVec 32) (code : RefusalCode)
    (faults : List Report) : State :=
  if s.link.refusals.length < 16 then
    reportAll faults
      { s with link := { s.link with refusals := s.link.refusals ++ [⟨l, tag, (s.lane l).number, code, address⟩] } }
  else reportAll (faults ++ [{ cause := .refusalLost, lane := some l }]) s

/-- No SESSION RESET in progress waits on this lane (R16): one that has ended waits for the reply slot alone (R161). -/
abbrev State.notAwaited (s : State) (l : Lane) : Prop :=
  ∀ o, s.mgmt.op = some o → o.kind = .sessionReset l → o.ended = true

/-- The management engine once this lane has entered DETACHED (R16, R161): a SESSION RESET that waits on it is replied DONE, waits
ended while the reply slot is full, or is discarded when forfeit; nothing else of it changes. -/
def State.resetSettled (s t : State) (l : Lane) : Prop :=
  (s.notAwaited l → t.mgmt = s.mgmt)
    ∧ ∀ m tag, s.mgmt.op = some ⟨.sessionReset l, m, tag, false⟩ →
      (s.mgmt.forfeit = true → t.mgmt = { s.mgmt with op := none })
      ∧ (s.mgmt.forfeit = false → s.mgmt.reply = none → t.mgmt =
          { s.mgmt with op := none, reply := some ⟨m, tag, (s.lane m).number, 0x09, .done, 0, []⟩ })
      ∧ (s.mgmt.forfeit = false → s.mgmt.reply.isSome → t.mgmt =
          { s.mgmt with op := some ⟨.sessionReset l, m, tag, true⟩ })

/-- The events that can carry RESTART on (R171): a lane's entry to DETACHED, a grant, a response, a timeout, the end of a
transmission, and link loss. -/
def eventOfRestart (c : Instr) : Prop :=
  (∃ l, c = .laneDetached l) ∨ (∃ ids, c = .grant ids) ∨ (∃ i st beats, c = .memoryResponse i st beats)
    ∨ (∃ i, c = .responseTimeout i) ∨ c = .transmissionEnd ∨ c = .damagedMarker ∨ c = .lossOfSignal

/-- No item of a response stream is an answer (R10). -/
abbrev LaneState.noAnswer (r : LaneState) : Prop := ∀ tag, StreamItem.answer tag ∉ r.stream

/-- The final change of RESTART but for its reply (R172): ids freed, run emptied, cache emptied, walk slots FREE, classes
OPEN with their timers restarted, one restart more, stage NONE, no operation in progress. -/
def State.restartEnded (s : State) : State :=
  { s with
    port := { s.port with ids := Vector.replicate 16 .free, run := none }
    xlat := { s.xlat with cache := [], walks := Vector.replicate 2 none }
    classes :=
      mapVec
        (fun c : BudgetClass =>
          { row := c.row
            holding := false
            windowCount := 0
            holdsLeft := 0
            slotUsed := 0
            windowTimer := if c.row.mode = .off then none else some (c.row.window * 1000)
            slotTimer := if c.row.mode = .off then none else some c.row.slot }) s.classes
    mgmt := { s.mgmt with restarts := s.mgmt.restarts + 1, stage := .none, op := none } }

/-- An area whose lane has lost these slots, with every unit they held (R40, R93, R97). -/
def Area.without (a : Area) (gone : List Slot) : Area :=
  { a with
    writeOccupied := a.writeOccupied - unitsHeld .write (fun _ => true) gone
    readReserved := a.readReserved - unitsHeld .read (fun u => !u.filled) gone
    readFilled := a.readFilled - unitsHeld .read (·.filled) gone }

/-- The stage of a slot that a drain of kind SILENT leaves in its list (R40). -/
def Slot.survives (q : Slot) : Bool := q.stage == .issued || q.stage == .sending

/-- What a drain of kind SILENT leaves in a stream: the item whose transmission has started, and the closing replies (R17, R40;
log 18). -/
def silentStream (started : Bool) (xs : List StreamItem) : List StreamItem :=
  (if started then xs.take 1 else [])
    ++ (if started then xs.drop 1 else xs).filter fun x => match x with
      | .closing _ _ => true
      | _ => false

/-- No other lane has a slot in this lane's area. -/
abbrev State.aloneInArea (s : State) (l : Lane) : Prop :=
  ∀ k, k ≠ l → (s.lane k).slots = [] ∨ (s.agent k).area ≠ (s.agent l).area

/-- Credit committed and the waiting CREDIT of a lane once those of these slots that are WRITEs have given their units back, one
after another, with the grant rule applied at each (R93, R102, R103). -/
def State.creditAfter (s : State) (l : Lane) (gone : List Slot) : Nat × Option Nat :=
  let r := s.lane l
  let a := s.area (s.agent l).area
  let released := fun (x : Nat × Nat × Option Nat) (q : Slot) =>
    let occupied := x.1 - q.held.length
    let free := a.row.writeUnits - (occupied + x.2.1)
    if r.session = .active ∧ 0 < free ∧ ((s.agent l).quantum ≤ free ∨ (occupied = 0 ∧ x.2.1 = 0)) then
      (occupied, x.2.1 + free, some (x.2.2.getD 0 + free))
    else (occupied, x.2)
  ((gone.filter fun q => q.dir == .write).foldl released (a.writeOccupied, r.credit, r.creditWaiting)).2

/-- The streams once these slots of each lane have become COMPLETE: a head among them is answered where no answer of its lane is in
the stream, and every other stream stays (R35). -/
def State.headsAnswered (s t : State) (gone : Lane → List Slot) : Prop :=
  ∀ l, let r := s.lane l
    (∀ h, r.slots.head? = some h → h ∈ gone l → r.noAnswer → (t.lane l).stream = r.stream ++ [.answer h.tag])
    ∧ ((∀ h, r.slots.head? = some h → h ∉ gone l ∧ h.stage ≠ .complete) ∨ ¬r.noAnswer → (t.lane l).stream = r.stream)

/-- The payload lies in the units, 64 bytes a unit, and every other byte of the storage is as it was (R91). -/
def Memory.placed (before after : Memory) (units : List Nat) (data : List Byte) : Prop :=
  (∀ k b, data[k]? = some b → ∃ u, units[k / 64]? = some u ∧ Memory.read after (u * 64 + k % 64) = some b)
    ∧ ∀ y, (∀ k u, k < data.length → units[k / 64]? = some u → y ≠ u * 64 + k % 64) →
        Memory.read after y = Memory.read before y

/-- The units hold nothing, and every other byte of the storage is as it was (R86). -/
def Memory.dropped (before after : Memory) (units : List Nat) : Prop :=
  ∀ y, Memory.read after y = if y / 64 ∈ units then none else Memory.read before y

/-- The units that a WRITE of so many bytes is given: as many as it needs, of those of the write share that no slot of the lane
holds (R91); the lowest ones (log 10). -/
def State.unitsOfWrite (s : State) (l : Lane) (length : Nat) : List Nat :=
  let row := (s.area (s.agent l).area).row
  ((List.range' row.firstUnit row.writeUnits).filter fun u =>
    decide (∀ q ∈ (s.lane l).slots, ∀ h ∈ q.held, h.unit ≠ u)).take ((length + 63) / 64)

/-- Reports taken in turn by the fault unit, with the claim and the time as they stand (R140). -/
def State.faultsAfter (s : State) (reps : List Report) : FaultUnit :=
  reps.foldl (fun u rep => u.take (s.mgmt.claim == .claimed) s.timebase rep) s.faults

/-- A fault record as the eight words of R183. -/
def FaultRecord.layout (f : FaultRecord) : List Word :=
  let p := f.report
  let bit := fun (present : Bool) (n : Byte) => if present then n else 0
  let mem : BitVec 64 := (p.mem.getD 0).setWidth 64
  [word32 (f.seq.extractLsb' 0 8) (f.seq.extractLsb' 8 8) (BitVec.ofNat 8 p.cause.number)
      (BitVec.ofNat 8 p.cause.severity.rank),
    f.time,
    word32
      (bit p.lane.isSome 1 ||| bit p.tag.isSome 2 ||| bit p.cls.isSome 4 ||| bit p.link.isSome 8 ||| bit p.mem.isSome 16)
      (match p.lane with | some l => BitVec.ofNat 8 l.val | none => 0)
      (match p.tag with | some tag => tag.setWidth 8 | none => 0)
      (match p.cls with | some c => BitVec.ofNat 8 c.val | none => 0),
    match p.link with | some a => a | none => 0,
    mem.extractLsb' 0 32, mem.extractLsb' 32 32, 0, 0]

/-- The slot that a waiter's piece belongs to stands in its list, TRANSLATING, with that piece WAITING, and no two of these waiters
are of one slot (R28, R73). -/
def State.waitersStand (s : State) (ws : List PieceRef) : Prop :=
  (ws.map fun p => (p.lane, p.tag)).Nodup
    ∧ ∀ p ∈ ws, ∃ q x, (s.lane p.lane).slot? p.tag = some q ∧ q.stage = .translating
      ∧ q.pieces[p.place]? = some x ∧ x.xlat = .waiting

/-- Walk slot `w`, once FREE, has the head of the waiting list to take, if there is one: the other walk slot is not FREE, and no
piece of these waiters' slots stands in the list (R75, R76). -/
abbrev State.nextStands (s : State) (w : WalkNo) (ws : List PieceRef) : Prop :=
  (s.xlat.waiting = [] ∨ ∀ v, v ≠ w → s.walk v ≠ none)
    ∧ ∀ e ∈ s.xlat.waiting, e.waiters ≠ [] ∧ ∀ p ∈ e.waiters, ∀ x ∈ ws, ¬(p.lane = x.lane ∧ p.tag = x.tag)

/-- The translation unit after walk slot `w` has become FREE and has taken the head of the waiting list, where there is one
(R76). -/
def Translation.nextIndex (x : Translation) (w : WalkNo) : Translation :=
  match x.waiting with
  | [] => { x with walks := x.walks.set w none }
  | e :: es =>
    { x with
      walks := x.walks.set w (some ⟨false, e.index, e.waiters, false, x.nextAge⟩)
      waiting := es
      nextAge := x.nextAge + 1 }

/-- No walk slot and no entry of the waiting list holds a piece of this slot (R75). -/
def State.noWaiterOf (s : State) (l : Lane) (tag : Tag) : Prop :=
  (∀ v x, s.walk v = some x → ∀ p ∈ x.waiters, ¬(p.lane = l ∧ p.tag = tag))
    ∧ ∀ e ∈ s.xlat.waiting, ∀ p ∈ e.waiters, ¬(p.lane = l ∧ p.tag = tag)

/-- No walk slot is READY (R129). -/
def State.noReadyWalk (s : State) : Prop := ∀ w x, s.walk w = some x → x.reading = true

/-- This walk slot is READY, and the older one of those that are (R129). -/
def State.walkFirst (s : State) (w : WalkNo) (x : Walk) : Prop :=
  s.walk w = some x ∧ x.reading = false ∧ ∀ v y, v ≠ w → s.walk v = some y → y.reading = false → x.age < y.age

/-- The conditions of R130, R113 and R94 under which a lane offers a slot. -/
abbrev State.offers (s : State) (l : Lane) (q : Slot) : Prop :=
  let r := s.lane l
  let a := s.area (s.agent l).area
  let c := s.cls (s.agent l).cls
  let n := (q.length + 63) / 64
  (r.session = .active ∨ (r.session = .draining ∧ r.drain = .answered))
    ∧ r.slots.find? Slot.unissued = some q ∧ q.stage = .queued ∧ r.issued < (s.agent l).maxOutstanding
    ∧ ¬(c.holding = true ∧ c.row.counts q.dir = true ∧ 0 < c.slotUsed ∧ c.row.allowance < c.slotUsed + n)
    ∧ (q.dir = .read → n ≤ a.row.readUnits - (a.readReserved + a.readFilled))

end Sys2Proof.Machine
end

