-- ==== Sys2Proof/WellFormed.lean ====
section
/-! DEFINITION. Which commands can be sent: a parcel command's payload fits a parcel (R180) and is the one its row names, a
dropped frame fails a receive check (R175), a grant names at most two different ids (R123), a response has at most 33
beats (R121). The meanings are total: they do not rest on this check. -/

namespace Sys2Proof

/-- A MGMT payload is at most 256 bytes, 64 words (R180). -/
def payloadFits (ws : List Word) : Bool := ws.length ≤ 64

/-- A LOAD_ROW payload with its table id and row words in front (R163). -/
def rowFits (words : List Word) : Bool := words.length ≤ 62

/-- The operation codes of R182. -/
def knownOperation (code : Byte) : Bool := 1 ≤ code.toNat && code.toNat ≤ 15

/-- The table ids that LOAD_ROW loads (R164, R165). -/
def loadableTable (table : Word) : Bool := [1, 2, 3, 5, 6, 7].contains table.toNat

/-- The check. -/
def Instr.wellFormed : Instr → Bool
  | .lineReset _ => true
  | .signalPresent => true
  | .goodMarker => true
  | .damagedMarker => true
  | .lossOfSignal => true
  | .parcelDropped frame =>
    match receive frame with
    | .handed _ => false
    | .crcFault => true
    | .formatFault _ => true
  | .join _ _ _ => true
  | .leave _ _ _ => true
  | .read _ _ _ _ _ => true
  | .write _ _ _ _ _ data => data.length ≤ 256
  | .claim _ _ => true
  | .confirm _ _ => true
  | .confirmTimerExpiry => true
  | .release _ _ => true
  | .handover _ _ payload => payloadFits payload
  | .readRow _ _ payload => payloadFits payload
  | .loadRow _ _ payload =>
    payloadFits payload &&
      match payload with
      | table :: _ :: _ => !loadableTable table
      | _ => true
  | .loadRowPort _ _ _ words => rowFits words
  | .loadRowAgents _ _ _ words => rowFits words
  | .loadRowWindows _ _ _ words => rowFits words
  | .loadRowAreas _ _ _ words => rowFits words
  | .loadRowClasses _ _ _ words => rowFits words
  | .loadRowRoutes _ _ _ words => rowFits words
  | .commit _ _ => true
  | .invalidate _ _ payload => payloadFits payload
  | .sessionSuspend _ _ payload => payloadFits payload && payload[1]? != some 1 && payload[1]? != some 2
  | .sessionResume _ _ payload => payloadFits payload && payload[1]? == some 1
  | .sessionReset _ _ payload => payloadFits payload && payload[1]? == some 2
  | .throttleStart _ _ payload => payloadFits payload && payload[1]? != some 1
  | .throttleRelease _ _ payload => payloadFits payload && payload[1]? == some 1
  | .readFaults _ _ payload => payloadFits payload
  | .clearFaults _ _ payload => payloadFits payload
  | .lock _ _ => true
  | .restart _ _ => true
  | .status _ _ => true
  | .unknownOperation _ _ code => !knownOperation code
  | .grant ids => ids.length ≤ 2 && decide ids.Nodup
  | .memoryResponse _ _ beats => beats.length ≤ 33
  | .responseTimeout _ => true
  | .windowEnd _ => true
  | .slotEnd _ => true
  | .transmitStart => true
  | .transmissionEnd => true
  | .laneDetached _ => true
  | .finalReplyHanded => true
  | .restartStageMemory => true
  | .restartFinalChange => true

end Sys2Proof
end

