-- ==== Sys2Proof/Certificates/Slice0/Obligations.lean ====
section
/-! DEFINITION. The statements for the provers, each about the part as spec/ describes it. -/

section

open Sys2Proof Sys2Proof.Machine

/-! ### The queue, time and line reset -/

/-- A step runs the command at the front of the queue on the part with the queue's rest. -/
def Obligations.StepRunsTheFrontCommand : Prop :=
  ∀ (c : Instr) (rest : List Instr) (s : State),
    step { s with pending := c :: rest } = exec c { s with pending := rest }

/-- A step on an empty queue is 1 µs of the timebase (the model's choice, log 3): the timebase counts (R139), the confirm timer
in CLAIM_PENDING (R157), the response timers of the ids IN_USE (R123, R126) and the class timers (R109, R110) run, and a
timer that ends is taken as its expiry command is; tables, link and role stay. When two timers end in one µs the order is
the model's (log 5). -/
def Obligations.IdleStepIsOneMicrosecond : Prop :=
  ∀ s : State, s.pending = [] →
    let down := fun timer : Option Nat => timer.map fun n => n - 1
    let counted : State :=
      { s with
        timebase := s.timebase + 1
        mgmt := { s.mgmt with confirmTimer := down s.mgmt.confirmTimer }
        classes :=
          mapVec (fun c : BudgetClass => { c with windowTimer := down c.windowTimer, slotTimer := down c.slotTimer })
            s.classes
        port :=
          { s.port with
            ids :=
              mapVec (fun x => match x with
                | .inUse owner n txn => .inUse owner (n - 1) txn
                | .free => .free
                | .quarantined => .quarantined) s.port.ids } }
    let last := fun timer : Option Nat => ∃ n, timer = some n ∧ n ≤ 1
    let confirmEnds := s.mgmt.claim = .pending ∧ last s.mgmt.confirmTimer
    let idEnds := fun i => ∃ owner n txn, s.memId i = .inUse owner n txn ∧ n ≤ 1
    let windowEnds := fun c => last (s.cls c).windowTimer
    let slotEnds := fun c => last (s.cls c).slotTimer
    (∃ t : State, step s = .next t ∧ t.timebase = s.timebase + 1 ∧ t.pending = []
      ∧ t.link = s.link ∧ t.agents = s.agents ∧ t.windows = s.windows ∧ t.portRow = s.portRow
      ∧ t.mgmt.manager = s.mgmt.manager ∧ t.mgmt.locked = s.mgmt.locked
      ∧ (∀ l, (t.lane l).number = (s.lane l).number)
      ∧ (∀ n, s.mgmt.claim = .pending → s.mgmt.confirmTimer = some (n + 2) →
          t.mgmt.claim = .pending ∧ t.mgmt.confirmTimer = some (n + 1))
      ∧ (s.mgmt.claim = .pending → s.mgmt.confirmTimer = some 1 →
          t.mgmt.claim = .unclaimed ∧ t.mgmt.confirmTimer = none))
    ∧ (¬confirmEnds → (∀ i, ¬idEnds i) → (∀ c, ¬windowEnds c ∧ ¬slotEnds c) → step s = .next counted)
    ∧ (confirmEnds → (∀ i, ¬idEnds i) → (∀ c, ¬windowEnds c ∧ ¬slotEnds c) → step s = exec .confirmTimerExpiry counted)
    ∧ (∀ i, ¬confirmEnds → idEnds i → (∀ j, j ≠ i → ¬idEnds j) → (∀ c, ¬windowEnds c ∧ ¬slotEnds c) →
        (∀ c, (s.cls c).row.mode ≠ .off → 0 < (s.cls c).row.window ∧ 0 < (s.cls c).row.slot) →
        step s = exec (.responseTimeout i) counted)
    ∧ (∀ c, ¬confirmEnds → (∀ i, ¬idEnds i) → windowEnds c → ¬slotEnds c →
        (∀ d, d ≠ c → ¬windowEnds d ∧ ¬slotEnds d) → step s = exec (.windowEnd c) counted)
    ∧ (∀ c, ¬confirmEnds → (∀ i, ¬idEnds i) → slotEnds c → ¬windowEnds c →
        (∀ d, d ≠ c → ¬windowEnds d ∧ ¬slotEnds d) → step s = exec (.slotEnd c) counted)

/-- Line reset gives every block its line-reset values (R5, R22, R23, R30, R43, R46, R66, R70, R76, R85, R86, R87, R105, R106,
R108, R120, R122, R137, R143, R153, R154, R173, R177, R178); the queue and the counter of free values are the model's own
and stay (log 23). `State.reset` is that state with the straps at 0, nothing pending and the counter at 0 (log 8, log 12). -/
def Obligations.LineResetEveryBlock : Prop :=
  (∀ (straps : BitVec 4) (s : State), exec (.lineReset straps) s = .next
    { pending := s.pending
      timebase := 0
      link :=
        { state := .down, good := 0, damaged := 0, refusals := [], tx := none, lastCredit := 15, lastStream := 15 }
      mgmt :=
        { claim := .unclaimed, strapped := straps.toFin, confirmTimer := none, manager := none, locked := false,
          op := none, forfeit := false, stage := .none, restarts := 0, reply := none }
      faults :=
        { log := [], nextSeq := 0,
          routes := Vector.ofFn fun i => ⟨if (causeOfRow i).severity = .severe then .line else .silent, false⟩,
          notices := [], missed := false, incomplete := false, alert := false }
      lanes := Vector.replicate 16
        { session := .detached, drain := .none, number := 0, closingOwed := none, joinReplySent := false, credit := 0,
          creditWaiting := none, slots := [], issued := 0, stream := [] }
      agents := Vector.replicate 16 ⟨false, 0, 0, 0, .normal, 0, 0, false, false⟩
      windows :=
        { staged := Vector.replicate 24 ⟨false, 0, 0, 0, .direct, false, false, false, 0, 0⟩,
          active := Vector.replicate 24 ⟨false, 0, 0, 0, .direct, false, false, false, 0, 0⟩, generation := 0 }
      portRow := ⟨0, 1, 4, 1000⟩
      xlat := { cache := [], walks := Vector.replicate 2 none, waiting := [], nextAge := 0 }
      areas := Vector.replicate 16 ⟨⟨false, 0, 0, 0⟩, 0, 0, 0⟩
      staging := []
      classes := Vector.replicate 8 ⟨⟨.off, .reads, 0, 0, 0, 0, 0⟩, false, 0, 0, 0, none, none⟩
      port := { ids := Vector.replicate 16 .free, lastUrgent := 15, lastNormal := 15, run := none }
      freeCount := s.freeCount })
  ∧ ∀ s : State, exec (.lineReset 0) s = .next { State.reset with pending := s.pending, freeCount := s.freeCount }

/-! ### The link -/

/-- The link state follows the receive pair (R173) but for link loss. That the good count stays at 16 in UP is the model's
(log 22). -/
def Obligations.LinkStateFollowsTheReceivePair : Prop :=
  ∀ s : State,
    (s.link.state = .down →
      exec .signalPresent s = .next { s with link := { s.link with state := .aligning, good := 0, damaged := 0 } }
        ∧ exec .goodMarker s = .next s ∧ exec .damagedMarker s = .next s ∧ exec .lossOfSignal s = .next s)
    ∧ (s.link.state = .aligning →
      exec .signalPresent s = .next s
        ∧ (s.link.good < 15 → exec .goodMarker s = .next { s with link := { s.link with good := s.link.good + 1 } })
        ∧ (s.link.good = 15 →
            exec .goodMarker s = .next { s with link := { s.link with state := .up, good := 16, damaged := 0 } })
        ∧ exec .damagedMarker s = .next { s with link := { s.link with good := 0 } }
        ∧ exec .lossOfSignal s = .next { s with link := { s.link with state := .down } })
    ∧ (s.link.state = .up →
      exec .signalPresent s = .next s
        ∧ exec .goodMarker s = .next { s with link := { s.link with damaged := 0 } }
        ∧ (s.link.damaged < 2 →
            exec .damagedMarker s = .next { s with link := { s.link with damaged := s.link.damaged + 1 } }))

/-- Link loss, by the third damaged marker or by loss of signal in UP (R19, R104, R151, R161, R173, R174): every transmit source
is emptied and the transmission cut off, LINK_LOST is taken after the notices are discarded, every joined lane goes
DRAINING SILENT (or on to DETACHED), an operation in progress is forfeit; tables, claim, session numbers and the round-robin
positions are kept. Of a joined lane's slots the ISSUED and the SENDING stay, but for the one whose answer is cut off, which
is freed (R38, R40), and the others give their units back. An operation that has ended is discarded, and so is a SESSION RESET
whose lane this detaches (R16, R161); while RESTARTING, EventsCarryRestartOn says what follows. -/
def Obligations.LinkLossEmptiesTheSources : Prop :=
  ∀ (c : Instr) (s : State), s.link.state = .up →
    (c = .lossOfSignal ∨ (c = .damagedMarker ∧ 2 ≤ s.link.damaged)) →
    let stays := fun (l : Lane) (q : Slot) =>
      q.survives && !(s.link.tx.any (fun x => x.source == .stream l)
        && (s.lane l).stream.head? == some (StreamItem.answer q.tag))
    ∃ t : State, exec c s = .next t ∧ t.link.state = .down ∧ t.link.tx = none ∧ t.link.refusals = []
      ∧ t.link.lastCredit = s.link.lastCredit ∧ t.link.lastStream = s.link.lastStream
      ∧ t.mgmt.reply = none ∧ (t.mgmt.op.isSome → t.mgmt.forfeit = true)
      ∧ (∀ o, s.mgmt.op = some o → o.ended = true → s.mgmt.stage = .none → t.mgmt.op = none)
      ∧ (∀ l m tag, s.mgmt.op = some ⟨.sessionReset l, m, tag, false⟩ → (s.lane l).session ≠ .detached →
          s.mgmt.stage = .none → t.mgmt.op = if (t.lane l).session = .detached then none else s.mgmt.op)
      ∧ t.faults = (s.faults.discardNotices 0).take (s.mgmt.claim == .claimed) s.timebase { cause := .linkLost }
      ∧ (∀ l, (t.lane l).stream = [] ∧ (t.lane l).creditWaiting = none ∧ (t.lane l).number = (s.lane l).number)
      ∧ (∀ l, (s.lane l).session = .detached → (t.lane l).session = .detached)
      ∧ (∀ l, (s.lane l).session ≠ .detached →
          ((t.lane l).session = .draining ∧ (t.lane l).drain = .silent) ∨ (t.lane l).session = .detached)
      ∧ (∀ l, (s.lane l).session ≠ .detached → (s.lane l).tags.Nodup →
          (t.lane l).slots = ((s.lane l).slots.filter (stays l)) ∧ (t.lane l).issued = (s.lane l).issued
            ∧ ((t.lane l).session = .detached ↔ (t.lane l).slots = [])
            ∧ (s.aloneInArea l → t.area (s.agent l).area =
                (s.area (s.agent l).area).without ((s.lane l).slots.filter fun q => !stays l q)))
      ∧ t.mgmt.claim = s.mgmt.claim ∧ t.mgmt.manager = s.mgmt.manager ∧ t.mgmt.strapped = s.mgmt.strapped
      ∧ t.mgmt.locked = s.mgmt.locked ∧ t.agents = s.agents ∧ t.windows = s.windows ∧ t.portRow = s.portRow
      ∧ (∀ a, (t.area a).row = (s.area a).row) ∧ (∀ k, (t.cls k).row = (s.cls k).row)
      ∧ t.timebase = s.timebase ∧ t.pending = s.pending

/-- A frame that fails a receive check of R175, the second with the payload lengths of R180, is dropped with its fault and reaches
no owner. A frame that passes both is the reception of its parcel and not this command's, which changes nothing (log 16). -/
def Obligations.DamagedParcelsAreDropped : Prop :=
  ∀ (f : Frame) (s : State), s.link.state = .up →
    let n := f.bytes.length
    let kind := f.bytes.getD 0 0
    let payload := n - 20
    let suits := (kind = 0x01 ∧ payload = 8) ∨ (kind = 0x02 ∧ payload = 0) ∨ (kind = 0x03 ∧ payload = 0)
      ∨ (kind = 0x04 ∧ payload ≤ 256) ∨ (kind = 0x05 ∧ payload ≤ 256 ∧ payload % 4 = 0)
    let tagged := (f.bytes.getD 2 0).toNat ≤ 15
    let good := f.ended = true ∧ 20 ≤ n ∧ f.bytes.drop (n - 4) = bytesOf32 (crc32 (f.bytes.take (n - 4)))
    (¬good → exec (.parcelDropped f) s = .next (report { cause := .linkCrc } s))
    ∧ (good → ¬(suits ∧ tagged) →
        exec (.parcelDropped f) s = .next (report { cause := .linkFormat, lane := some (laneOf (f.bytes.getD 1 0)) } s))
    ∧ (good → suits → tagged → exec (.parcelDropped f) s = .next s)

/-- A well-formed parcel command, laid out in bytes as R180 and R182 give with its CRC-32, passes both receive checks of R175
and is handed on as that command with every operand (R176). The header bytes that R180 leaves open are 0 in that layout
(log 35). -/
def Obligations.ParcelsAreReceivedAsSent : Prop :=
  ∀ (c : Instr) (p : Parcel), c.wellFormed = true → instrParcel c = some p → receive ⟨p.bytes, true⟩ = .handed c

/-! ### Sessions -/

/-- JOIN. One that R6 accepts: the next session number, ACTIVE, JOIN_REPLY OK, and the whole write share as credit (R9), with no
other lane and no other part of the state changed. Every other: dropped with REFUSAL_LOST while an immediate reply waits
(R10), NOT_READY or SESSION_BUSY (R7), or REFUSED with JOIN_REFUSED (R6), with the session as it was. That the REFUSED reply
carries the lane's unchanged number is the model's reading (log 30). -/
def Obligations.JoinIsAnswered : Prop :=
  ∀ (lane : Byte) (tag : Tag) (identifier : BitVec 64) (s : State),
    let l := laneOf lane
    let r := s.lane l
    let row := s.agent l
    let area := s.area row.area
    let answered := fun st => s.setLane l (r.handed (.joinReply st tag r.number))
    let run := exec (.join lane tag identifier) s
    s.link.state = .up → s.noClaimOf l →
    (r.immediateBusy = true → run = .next (report { cause := .refusalLost, lane := some l } s))
    ∧ (r.immediateBusy = false →
        (s.mgmt.stage ≠ .none → run = .next (answered .notReady))
        ∧ (s.mgmt.stage = .none → r.session ≠ .detached → run = .next (answered .sessionBusy))
        ∧ (s.mgmt.stage = .none → r.session = .detached →
            (row.enabled = false ∨ row.identifier ≠ identifier ∨ area.row.enabled = false →
              run = .next (report { cause := .joinRefused, lane := some l } (answered .refused)))
            ∧ (row.enabled = true → row.identifier = identifier → area.row.enabled = true →
                area.writeOccupied = 0 → r.credit = 0 → r.creditWaiting = none → 0 < area.row.writeUnits →
                run = .next (s.setLane l
                  { r with
                    session := .active
                    drain := .none
                    number := r.number + 1
                    joinReplySent := false
                    credit := area.row.writeUnits
                    creditWaiting := some area.row.writeUnits
                    stream := r.stream ++ [.joinReply .ok tag (r.number + 1)] }))))

/-- A LEAVE that opens no drain is answered by the first case of R11 that holds, or dropped with REFUSAL_LOST (R10); one on
an empty list closes its drain at once with the closing reply (R11, R12, R18). Otherwise a drain of kind ANSWERED opens
(R39): each unissued slot is COMPLETE with CANCELLED, gives its units back (R33) and leaves every walk (R75), every other slot
stays as it is, the list keeps its order, a head that became COMPLETE is answered (R35), and the LEAVE's tag is owed its
closing reply (R12). -/
def Obligations.LeaveIsAnswered : Prop :=
  ∀ (lane : Byte) (tag : Tag) (number : Byte) (s : State),
    let l := laneOf lane
    let r := s.lane l
    let a := (s.agent l).area
    let gone := r.slots.filter Slot.unissued
    let answered := fun st => s.setLane l (r.handed (.leaveReply st tag r.number))
    let run := exec (.leave lane tag number) s
    s.link.state = .up → s.noClaimOf l →
    (r.immediateBusy = true → run = .next (report { cause := .refusalLost, lane := some l } s))
    ∧ (r.immediateBusy = false →
        (s.mgmt.stage ≠ .none → run = .next (answered .notReady))
        ∧ (s.mgmt.stage = .none →
            (r.session = .detached → run = .next (answered .notJoined))
            ∧ (r.session = .draining → run = .next (answered .draining))
            ∧ (r.session = .active ∨ r.session = .suspended →
                (number ≠ r.number → run = .next (answered .staleSession))
                ∧ (number = r.number → r.slots = [] → s.notAwaited l →
                    run = .next (s.setLane l
                      { r with
                        session := .detached
                        drain := .none
                        closingOwed := none
                        joinReplySent := false
                        credit := 0
                        creditWaiting := none
                        stream := r.stream ++ [.closing tag r.number] }))
                ∧ (number = r.number → r.slots ≠ [] → r.tags.Nodup → ∃ t : State, run = .next t
                  ∧ (t.lane l).session = .draining ∧ (t.lane l).drain = .answered ∧ (t.lane l).closingOwed = some tag
                  ∧ (t.lane l).number = r.number ∧ (t.lane l).credit = r.credit
                  ∧ (t.lane l).creditWaiting = r.creditWaiting ∧ (t.lane l).issued = r.issued
                  ∧ (t.lane l).slots = r.slots.map (fun q =>
                      if q.unissued then { q with stage := .complete, status := some .cancelled, held := [] } else q)
                  ∧ (∀ q ∈ gone, t.noWaiterOf l q.tag) ∧ t.xlat.cache = s.xlat.cache
                  ∧ t.area a = (s.area a).without gone ∧ (∀ b, b ≠ a → t.area b = s.area b)
                  ∧ Memory.dropped s.staging t.staging (gone.flatMap fun q => q.held.map (·.unit))
                  ∧ (∀ h, r.slots.head? = some h →
                      (h.unissued = true → r.noAnswer → (t.lane l).stream = r.stream ++ [.answer h.tag])
                      ∧ (h.unissued = false → h.stage ≠ .complete ∨ ¬r.noAnswer → (t.lane l).stream = r.stream))
                  ∧ (∀ k, k ≠ l → t.lane k = s.lane k) ∧ t.mgmt = s.mgmt ∧ t.faults = s.faults ∧ t.link = s.link
                  ∧ t.agents = s.agents ∧ t.windows = s.windows ∧ t.classes = s.classes ∧ t.port = s.port))))

/-- A draining lane whose list is empty enters DETACHED: no credit, no waiting CREDIT, the number kept (R18), the closing reply
handed if the drain is ANSWERED (R12), and a SESSION RESET that waits on the lane ends (R16): it is replied DONE when the slot
is empty, waits ended for the slot while it is full, and is discarded when it is forfeit (R161). While RESTARTING,
EventsCarryRestartOn says what follows. In every other state of the lane LANE_DETACHED changes nothing (log 2). -/
def Obligations.LaneEntersDetached : Prop :=
  ∀ (l : Lane) (s : State),
    let r := s.lane l
    let gone : LaneState :=
      { r with
        session := .detached, drain := .none, closingOwed := none, joinReplySent := false, credit := 0
        creditWaiting := none }
    (r.session ≠ .draining ∨ r.slots ≠ [] → exec (.laneDetached l) s = .next s)
    ∧ (r.session = .draining → r.slots = [] → s.mgmt.stage = .none →
        (s.notAwaited l → r.drain = .silent → exec (.laneDetached l) s = .next (s.setLane l gone))
        ∧ (s.notAwaited l → ∀ tag, r.drain = .answered → r.closingOwed = some tag →
            exec (.laneDetached l) s = .next (s.setLane l (gone.handed (.closing tag r.number))))
        ∧ (∀ m tag, s.mgmt.op = some ⟨.sessionReset l, m, tag, false⟩ → r.drain = .silent →
            (s.mgmt.forfeit = false → s.mgmt.reply = none → exec (.laneDetached l) s = .next
              ({ s.setLane l gone with mgmt := { s.mgmt with op := none } }.replied m tag 0x09 .done 0 []))
            ∧ (s.mgmt.forfeit = false → s.mgmt.reply.isSome → exec (.laneDetached l) s = .next
              { s.setLane l gone with mgmt := { s.mgmt with op := some ⟨.sessionReset l, m, tag, true⟩ } })
            ∧ (s.mgmt.forfeit = true → exec (.laneDetached l) s = .next
              { s.setLane l gone with mgmt := { s.mgmt with op := none } })))

/-- SESSION SUSPEND (R13) and SESSION RESUME (R15), with the grant rule applied afresh at a resumption. -/
def Obligations.SuspendAndResume : Prop :=
  ∀ (lane : Byte) (tag : Tag) (ws : List Word) (l : Lane) (s : State),
    let m := laneOf lane
    let r := s.lane l
    s.ready m → 2 ≤ ws.length → word ws 0 = l.val →
    (word ws 1 = 0 →
      (r.session = .active → exec (.sessionSuspend lane tag ws) s =
        .next ((s.taken.setLane l { r with session := .suspended }).replied m tag 0x09 .done 0 []))
      ∧ (r.session ≠ .active → exec (.sessionSuspend lane tag ws) s = .next (s.taken.replied m tag 0x09 .state 0 [])))
    ∧ (word ws 1 = 1 →
      (r.session = .suspended → exec (.sessionResume lane tag ws) s =
        .next ((grantRule l (s.taken.setLane l { r with session := .active })).replied m tag 0x09 .done 0 []))
      ∧ (r.session ≠ .suspended →
          exec (.sessionResume lane tag ws) s = .next (s.taken.replied m tag 0x09 .state 0 [])))

/-- SESSION RESET (R16, R17, R40): STATE for a DETACHED lane. Otherwise every slot that is neither ISSUED nor SENDING is
discarded with its units, and of the lane's stream the item whose transmission has started stays and the immediate reply
and the waiting answer go (R17; that a closing reply already handed stays is log 18); while a slot stays the lane is
DRAINING SILENT and the operation in progress, and when none stays the lane is DETACHED and the reply DONE is handed in the
same change. A lane that is SILENT already only waits (log 28). -/
def Obligations.SessionResetSilencesTheLane : Prop :=
  ∀ (lane : Byte) (tag : Tag) (ws : List Word) (l : Lane) (s : State),
    let m := laneOf lane
    let r := s.lane l
    let a := (s.agent l).area
    s.ready m → 2 ≤ ws.length → word ws 0 = l.val → word ws 1 = 2 →
    (r.session = .detached → exec (.sessionReset lane tag ws) s = .next (s.taken.replied m tag 0x09 .state 0 []))
    ∧ (r.session = .draining → r.drain = .silent →
        exec (.sessionReset lane tag ws) s =
          .next { s.taken with mgmt := { s.taken.mgmt with op := some ⟨.sessionReset l, m, tag, false⟩ } })
    ∧ (r.session ≠ .detached → r.drain ≠ .silent → r.tags.Nodup →
        ∃ t : State, exec (.sessionReset lane tag ws) s = .next t ∧ (t.lane l).number = r.number
          ∧ (t.lane l).slots = r.slots.filter Slot.survives ∧ (t.lane l).issued = r.issued
          ∧ (t.lane l).stream = silentStream (s.link.tx.any fun x => x.source == .stream l) r.stream
          ∧ t.area a = (s.area a).without (r.slots.filter fun q => !q.survives) ∧ (∀ b, b ≠ a → t.area b = s.area b)
          ∧ ((t.lane l).slots ≠ [] →
              (t.lane l).session = .draining ∧ (t.lane l).drain = .silent ∧ (t.lane l).closingOwed = none
                ∧ (t.lane l).credit = r.credit
                ∧ t.mgmt.op = some ⟨.sessionReset l, m, tag, false⟩ ∧ t.mgmt.reply = none)
          ∧ ((t.lane l).slots = [] →
              (t.lane l).session = .detached ∧ (t.lane l).credit = 0 ∧ (t.lane l).creditWaiting = none
                ∧ t.mgmt.op = none ∧ t.mgmt.reply = some ⟨m, tag, (s.lane m).number, 0x09, .done, 0, []⟩)
          ∧ (∀ k, k ≠ l → t.lane k = s.lane k) ∧ t.faults = s.faults ∧ t.link = s.link ∧ t.agents = s.agents
          ∧ t.windows = s.windows ∧ t.classes = s.classes ∧ t.port = s.port)

/-- The grant rule (R102, R103): the whole ungranted space joins credit committed and the waiting CREDIT when the lane is
ACTIVE and the space reaches the quantum, or is above 0 with nothing occupied and nothing committed; it never takes write
occupied plus credit committed above the write share (R91). -/
def Obligations.GrantRuleGivesTheWholeSpace : Prop :=
  ∀ (l : Lane) (s : State),
    let a := s.area (s.agent l).area
    let r := s.lane l
    let free := a.row.writeUnits - (a.writeOccupied + r.credit)
    let due := r.session = .active ∧ 0 < free
      ∧ ((s.agent l).quantum ≤ free ∨ (a.writeOccupied = 0 ∧ r.credit = 0))
    (due → grantRule l s = s.setLane l
      { r with credit := r.credit + free, creditWaiting := some (r.creditWaiting.getD 0 + free) })
    ∧ (¬due → grantRule l s = s)
    ∧ (a.writeOccupied + r.credit ≤ a.row.writeUnits →
        a.writeOccupied + ((grantRule l s).lane l).credit ≤ a.row.writeUnits)

/-! ### The role -/

/-- In UNCLAIMED a CLAIM from the strapped lane makes the claim pending and starts the confirm timer; every other MGMT parcel,
from any lane, is replied NOT_READY and changes nothing (R156). -/
def Obligations.UnclaimedTakesOnlyTheStrappedClaim : Prop :=
  ∀ (c : Instr) (rq : MgmtRequest) (s : State), mgmtOf c = some rq → s.link.state = .up → s.mgmt.reply = none →
    s.mgmt.claim = .unclaimed →
    (rq.code = 0x01 → rq.lane = s.mgmt.strapped → exec c s = .next
      ({ s with mgmt := { s.mgmt with claim := .pending, confirmTimer := some 100000 } }.replied rq.lane rq.tag 0x01
        .done 0 []))
    ∧ (rq.code ≠ 0x01 ∨ rq.lane ≠ s.mgmt.strapped →
        exec c s = .next (s.replied rq.lane rq.tag rq.code .notReady 0 []))

/-- In CLAIM_PENDING (R157): CONFIRM from the strapped lane makes the part CLAIMED with it as manager; any other parcel of the
strapped lane ends the claim and is then handled as though it had not been pending; the timer's expiry ends it without a
reply; a MGMT parcel of another lane is replied NOT_READY; parcels of other kinds from other lanes do not touch it. -/
def Obligations.PendingClaimIsSettled : Prop :=
  ∀ s : State, s.mgmt.claim = .pending →
    (∀ c rq, mgmtOf c = some rq → s.link.state = .up → s.mgmt.reply = none → rq.code = 0x02 →
      rq.lane = s.mgmt.strapped → exec c s = .next
        ({ s with mgmt := { s.mgmt with claim := .claimed, confirmTimer := none, manager := some s.mgmt.strapped }
          }.replied rq.lane rq.tag 0x02 .done 0 []))
    ∧ (∀ c, s.link.state = .up → parcelLane c = some s.mgmt.strapped →
        (∀ rq, mgmtOf c = some rq → rq.code ≠ 0x02) → exec c s = exec c s.claimEnded)
    ∧ (s.mgmt.confirmTimer.isSome → exec .confirmTimerExpiry s = .next s.claimEnded)
    ∧ (∀ c rq, mgmtOf c = some rq → s.link.state = .up → s.mgmt.reply = none → rq.lane ≠ s.mgmt.strapped →
        exec c s = .next (s.replied rq.lane rq.tag rq.code .notReady 0 []))
    ∧ (∀ c l, parcelLane c = some l → mgmtOf c = none → l ≠ s.mgmt.strapped →
        ∃ t : State, exec c s = .next t ∧ t.mgmt.claim = .pending ∧ t.mgmt.confirmTimer = s.mgmt.confirmTimer)

/-- Steps 1, 2, 4, 5 and 6 of R155: a MGMT parcel that finds the reply slot full is dropped with MGMT_REFUSED, after it has ended
the pending claim of its lane unless it is CONFIRM; one from another lane than the manager is replied NOT_MANAGER with
MGMT_REFUSED, one that meets an operation in progress or RESTART is replied BUSY with the operation and the stage (R161,
R182), and an unknown operation or refused operands BAD_VALUE; and a LOAD_ROW of IDENTITY, WINDOWS_ACTIVE or an id above 7
is replied BAD_TABLE (R165). The two high bytes of the BUSY reply's word are 0 (log 34). -/
def Obligations.MgmtParcelsAreSettledInOrder : Prop :=
  (∀ (c : Instr) (rq : MgmtRequest) (s : State), mgmtOf c = some rq → s.link.state = .up →
    let endsClaim := s.mgmt.claim = .pending ∧ rq.lane = s.mgmt.strapped ∧ rq.code ≠ 0x02
    let refused : Report := { cause := .mgmtRefused, lane := some rq.lane }
    (¬endsClaim → s.mgmt.reply.isSome → exec c s = .next (report refused s))
    ∧ (endsClaim → s.mgmt.reply.isSome → exec c s = .next (report refused s.claimEnded))
    ∧ (s.mgmt.reply = none → s.mgmt.claim = .claimed →
      (s.mgmt.manager ≠ some rq.lane →
        exec c s = .next (report refused (s.replied rq.lane rq.tag rq.code .notManager 0 [])))
      ∧ (∀ o, s.mgmt.manager = some rq.lane → s.mgmt.op = some o →
          exec c s = .next (s.replied rq.lane rq.tag rq.code .busy
            (word32 (match o.kind with | .sessionReset _ => 0x09 | .restart => 0x0E)
              (match s.mgmt.stage with | .none => 0 | .lanes => 1 | .memory => 2) 0 0) []))))
  ∧ ∀ (lane : Byte) (tag : Tag) (ws : List Word) (s : State), s.ready (laneOf lane) →
    let bad := fun code : Byte => Host.Outcome.next (s.replied (laneOf lane) tag code .badValue 0 [])
    (∀ code, exec (.unknownOperation lane tag code) s = bad code)
    ∧ (ws.length < 1 ∨ 15 < word ws 0 → exec (.handover lane tag ws) s = bad 0x04)
    ∧ (ws.length < 2 ∨ 15 < word ws 0 ∨ 2 < word ws 1 →
        exec (.sessionSuspend lane tag ws) s = bad 0x09 ∧ exec (.sessionResume lane tag ws) s = bad 0x09
          ∧ exec (.sessionReset lane tag ws) s = bad 0x09)
    ∧ (ws.length < 2 → exec (.readRow lane tag ws) s = bad 0x05 ∧ exec (.loadRow lane tag ws) s = bad 0x06)
    ∧ (2 ≤ ws.length → word ws 0 = 0 ∨ word ws 0 = 4 ∨ 7 < word ws 0 →
        exec (.loadRow lane tag ws) s = .next (s.taken.replied (laneOf lane) tag 0x06 .badTable 0 []))

/-- The role in CLAIMED: CLAIM and CONFIRM of the manager are replied STATE (R158), RELEASE gives the role up (R159), HANDOVER
passes it to an ACTIVE lane whose row is manage-capable, with a ROLE notice, and is otherwise replied STATE or
NOT_PERMITTED (R160). -/
def Obligations.TheManagerGivesUpOrPassesTheRole : Prop :=
  ∀ (lane : Byte) (tag : Tag) (ws : List Word) (l : Lane) (s : State),
    let m := laneOf lane
    s.ready m →
    exec (.claim lane tag) s = .next (s.taken.replied m tag 0x01 .state 0 [])
    ∧ exec (.confirm lane tag) s = .next (s.taken.replied m tag 0x02 .state 0 [])
    ∧ exec (.release lane tag) s = .next
        ({ s with mgmt := { s.mgmt with forfeit := false, claim := .unclaimed, manager := none } }.replied m tag 0x03
          .done 0 [])
    ∧ (1 ≤ ws.length → word ws 0 = l.val →
        (l = m → exec (.handover lane tag ws) s = .next (s.taken.replied m tag 0x04 .state 0 []))
        ∧ (l ≠ m → ((s.lane l).session ≠ .active ∨ (s.agent l).manageCapable = false) →
            exec (.handover lane tag ws) s = .next (s.taken.replied m tag 0x04 .notPermitted 0 []))
        ∧ (l ≠ m → (s.lane l).session = .active → (s.agent l).manageCapable = true →
            exec (.handover lane tag ws) s = .next
              ({ s with
                  mgmt := { s.mgmt with forfeit := false, manager := some l }
                  faults := s.faults.queueNotice (.role m l) }.replied m tag 0x04 .done 0 [])))

/-! ### Tables -/

/-- READ_ROW (R164): BAD_TABLE above table 7, BAD_ROW outside the table, and otherwise the row's loadable words and then its
runtime words (R2, R49, R50, R69, R89, R108, R143, R166, R167), with nothing else changed. A field of named values is carried
as the index of its value in its rule's list, a yes-or-no field as 1 or 0 (R166). -/
def Obligations.ReadRowReturnsTheRow : Prop :=
  ([SessionState.detached, .active, .suspended, .draining].map (·.code) = [0, 1, 2, 3]
    ∧ [DrainKind.none, .answered, .silent].map (·.code) = [0, 1, 2]
    ∧ [WindowKind.direct, .translated, .sink].map (·.code) = [0, 1, 2]
    ∧ [Mode.off, .monitor, .enforce].map (·.code) = [0, 1, 2]
    ∧ [Counted.reads, .writes, .both].map (·.code) = [0, 1, 2]
    ∧ [Route.silent, .notify, .line].map (·.code) = [0, 1, 2]
    ∧ [Severity.notice, .error, .severe].map (·.rank) = [0, 1, 2]
    ∧ (∀ i, (causeOfRow i).number = i.val + 1) ∧ boolWord false = 0 ∧ boolWord true = 1
    ∧ ∀ n, (natWord n).toNat = n % 2 ^ 32)
  ∧ ∀ (lane : Byte) (tag : Tag) (ws : List Word) (s : State), s.ready (laneOf lane) → 2 ≤ ws.length →
    let table := word ws 0
    let row := word ws 1
    let answer := fun st words => exec (.readRow lane tag ws) s = .next (s.taken.replied (laneOf lane) tag 0x05 st 0 words)
    (7 < table → answer .badTable [])
    ∧ (∀ n, (table, n) ∈ [(0, 1), (1, 1), (2, 16), (3, 24), (4, 24), (5, 16), (6, 8)] → n ≤ row → answer .badRow [])
    ∧ (table = 7 → row = 0 ∨ 24 < row → answer .badRow [])
    ∧ (table = 0 → row = 0 → answer .done [0x0E71, 0x0016, 1, 16, 16, 64, 24, 32, 2, 256, 16, 8, 16, 8, 24, 4, 16, 100])
    ∧ (table = 1 → row = 0 → answer .done
        [natWord s.portRow.tableBase, natWord s.portRow.entryCount, natWord s.portRow.tenure, natWord s.portRow.timeout,
          natWord s.xlat.cache.length, natWord ((allWalks.filter fun w => (s.walk w).isSome).length),
          natWord s.xlat.waiting.length])
    ∧ (∀ l : Lane, table = 2 → row = l.val →
        let a := s.agent l
        let r := s.lane l
        answer .done
          [boolWord a.enabled, a.identifier.extractLsb' 0 32, a.identifier.extractLsb' 32 32, natWord a.area.val,
            natWord a.cls.val, boolWord (a.priority == .urgent), natWord a.maxOutstanding, natWord a.quantum,
            boolWord a.privileged, boolWord a.manageCapable, natWord r.session.code, r.number.setWidth 32,
            natWord r.credit, natWord r.slots.length, natWord r.drain.code])
    ∧ (∀ i : Fin 24, row = i.val →
        let words := fun w : WindowRow =>
          [boolWord w.enabled, w.lanes.setWidth 32, w.base, natWord w.pages, natWord w.kind.code, boolWord w.permitRead,
            boolWord w.permitWrite, boolWord w.guarded, natWord w.targetPage, natWord w.tableOffset]
        let slots := fun p : Slot → Bool => natWord ((allLanes.map fun l => ((s.lane l).slots.filter p).length).sum)
        (table = 3 → answer .done
          (words s.windows.staged[i] ++ [boolWord (decide (s.windows.staged[i] ≠ s.windows.active[i]))]))
        ∧ (table = 4 → answer .done
          (words s.windows.active[i]
            ++ [slots fun q => q.capture.any fun c => c.row == i && c.generation == s.windows.generation,
                slots fun q => q.capture.any fun c => c.generation != s.windows.generation])))
    ∧ (∀ a : Fin 16, table = 5 → row = a.val →
        let x := s.area a
        let loadable := [boolWord x.row.enabled, natWord x.row.firstUnit, natWord x.row.writeUnits, natWord x.row.readUnits]
        (∀ l, (s.agent l).enabled = true → (s.agent l).area = a →
          (∀ k, (s.agent k).enabled = true → (s.agent k).area = a → k = l) →
          answer .done (loadable ++ [natWord l.val, natWord x.writeOccupied, natWord (s.lane l).credit,
            natWord x.readReserved, natWord x.readFilled]))
        ∧ ((∀ l, (s.agent l).enabled = true → (s.agent l).area ≠ a) → answer .done (loadable ++ [16, 0, 0, 0, 0])))
    ∧ (∀ n : ClassNo, table = 6 → row = n.val →
        let c := s.cls n
        answer .done
          [natWord c.row.mode.code, natWord c.row.counted.code, natWord c.row.window, natWord c.row.threshold,
            natWord c.row.hold, natWord c.row.slot, natWord c.row.allowance, boolWord c.holding, natWord c.windowCount,
            natWord c.holdsLeft, natWord c.slotUsed])
    ∧ (∀ i : Fin 24, table = 7 → row = i.val + 1 →
        let x := s.faults.routes[i]
        answer .done
          [natWord x.route.code, boolWord x.suspend, natWord (causeOfRow i).severity.rank,
            natWord ((s.faults.log.filter fun f => f.report.cause.row == i).length)])

/-- LOAD_ROW of the PORT row (R67): refused in the first case that holds, or replacing the row; a load that changes the table
base or the entry count also empties the cache and makes every READING walk stale, and its reply counts the walks marked and
the pieces holding; one that changes neither replies 0 and 0 (R68). -/
def Obligations.LoadPortRow : Prop :=
  ∀ (lane : Byte) (tag : Tag) (row : Word) (ws : List Word) (s : State),
    let m := laneOf lane
    let w := word ws
    let new : PortRow := ⟨w 0, w 1, w 2, w 3⟩
    s.ready m →
    let refused := firstCase
      [(decide (row ≠ 0), .badRow), (decide (ws.length < 4), .badValue), (s.mgmt.locked, .locked),
        (decide (16777215 < w 0 ∨ w 1 = 0 ∨ 1048576 < w 1 ∨ w 2 = 0 ∨ 16 < w 2 ∨ w 3 < 4 ∨ 4000 < w 3), .badValue),
        (decide (2 ^ 36 < w 0 * 4096 + w 1 * 8), .badValue)]
    (∀ st, refused = some st → exec (.loadRowPort lane tag row ws) s = .next (s.loadRefused m tag st))
    ∧ (refused = none →
        (w 0 = s.portRow.tableBase ∧ w 1 = s.portRow.entryCount → exec (.loadRowPort lane tag row ws) s =
          .next ({ s.taken with portRow := new }.replied m tag 0x06 .done 0 [0, 0]))
        ∧ (w 0 ≠ s.portRow.tableBase ∨ w 1 ≠ s.portRow.entryCount → exec (.loadRowPort lane tag row ws) s = .next
          ({ s.taken with
              portRow := new
              xlat :=
                { s.xlat with
                  cache := []
                  walks :=
                    mapVec (Option.map fun x : Walk => { x with stale := x.stale || x.reading }) s.xlat.walks }
            }.replied m tag 0x06 .done 0 [natWord (s.walksMarked .all), natWord (s.piecesHolding .all)])))

/-- LOAD_ROW of an agent row (R3, R165): refused in the first case that holds, or replacing the row. -/
def Obligations.LoadAgentRow : Prop :=
  ∀ (lane : Byte) (tag : Tag) (row : Word) (ws : List Word) (s : State),
    let m := laneOf lane
    let w := word ws
    s.ready m →
    (15 < row.toNat → exec (.loadRowAgents lane tag row ws) s = .next (s.loadRefused m tag .badRow))
    ∧ ∀ l : Lane, row.toNat = l.val →
      let refused := firstCase
        [(decide ((s.lane l).session ≠ .detached), .rowInUse), (decide (ws.length < 10), .badValue),
          (decide (1 < w 0 ∨ 1 < w 8 ∨ 1 < w 9 ∨ 15 < w 3 ∨ 7 < w 4 ∨ 1 < w 5 ∨ 16 < w 6
            ∨ w 7 ∉ [0, 1, 2, 4, 8]), .badValue),
          (decide (w 0 = 1 ∧ (w 6 = 0 ∨ w 7 = 0)), .badValue),
          (decide (w 0 = 1 ∧ ∃ k, k ≠ l ∧ (s.agent k).enabled = true ∧ (s.agent k).area.val = w 3), .overlap)]
      (∀ st, refused = some st → exec (.loadRowAgents lane tag row ws) s = .next (s.loadRefused m tag st))
      ∧ (refused = none → exec (.loadRowAgents lane tag row ws) s = .next
          ({ s.taken with
              agents := s.agents.set l
                { enabled := decide (w 0 = 1), identifier := ws.getD 2 0 ++ ws.getD 1 0, area := Fin.ofNat 16 (w 3)
                  cls := Fin.ofNat 8 (w 4), priority := if w 5 = 1 then .urgent else .normal, maxOutstanding := w 6
                  quantum := w 7, privileged := decide (w 8 = 1), manageCapable := decide (w 9 = 1) }
            }.replied m tag 0x06 .done 0 []))

/-- LOAD_ROW of a WINDOWS row (R47, R48): refused in the first case that holds, or replacing the STAGED row alone. -/
def Obligations.LoadWindowRow : Prop :=
  ∀ (lane : Byte) (tag : Tag) (row : Word) (ws : List Word) (s : State),
    let m := laneOf lane
    let w := word ws
    s.ready m →
    (23 < row.toNat → exec (.loadRowWindows lane tag row ws) s = .next (s.loadRefused m tag .badRow))
    ∧ ∀ i : Fin 24, row.toNat = i.val →
      let refused := firstCase
        [(decide (ws.length < 10), .badValue),
          (s.mgmt.locked && ((s.windows.active[i]).guarded || decide (w 7 ≠ 0)), .locked),
          (decide (1 < w 0 ∨ 1 < w 5 ∨ 1 < w 6 ∨ 1 < w 7 ∨ 0xFFFF < w 1 ∨ w 2 % 4096 ≠ 0 ∨ 1048576 < w 3 ∨ 2 < w 4
            ∨ 16777215 < w 8 ∨ 1048575 < w 9), .badValue),
          (decide (w 0 = 1 ∧ w 3 = 0), .badValue), (decide (w 0 = 1 ∧ 1048576 < w 2 / 4096 + w 3), .badValue),
          (decide (w 0 = 1 ∧ w 4 = 0 ∧ 16777216 < w 8 + w 3), .badValue)]
      (∀ st, refused = some st → exec (.loadRowWindows lane tag row ws) s = .next (s.loadRefused m tag st))
      ∧ (refused = none → exec (.loadRowWindows lane tag row ws) s = .next
          ({ s.taken with
              windows :=
                { s.windows with
                  staged := s.windows.staged.set i
                    { enabled := decide (w 0 = 1), lanes := BitVec.ofNat 16 (w 1), base := ws.getD 2 0, pages := w 3
                      kind := if w 4 = 0 then .direct else if w 4 = 1 then .translated else .sink
                      permitRead := decide (w 5 = 1), permitWrite := decide (w 6 = 1), guarded := decide (w 7 = 1)
                      targetPage := w 8, tableOffset := w 9 } }
            }.replied m tag 0x06 .done 0 []))

/-- LOAD_ROW of an area row (R88): refused in the first case that holds, or replacing the row with its counts kept. -/
def Obligations.LoadAreaRow : Prop :=
  ∀ (lane : Byte) (tag : Tag) (row : Word) (ws : List Word) (s : State),
    let m := laneOf lane
    let w := word ws
    s.ready m →
    (15 < row.toNat → exec (.loadRowAreas lane tag row ws) s = .next (s.loadRefused m tag .badRow))
    ∧ ∀ a : Fin 16, row.toNat = a.val →
      let refused := firstCase
        [(decide (ws.length < 4), .badValue), (s.mgmt.locked, .locked),
          (decide (∃ l, (s.agent l).enabled = true ∧ (s.agent l).area = a ∧ (s.lane l).session ≠ .detached), .rowInUse),
          (decide (1 < w 0 ∨ 255 < w 1 ∨ 252 < w 2 ∨ 252 < w 3), .badValue),
          (decide (w 0 = 1 ∧ (w 2 < 4 ∨ w 3 < 4 ∨ 256 < w 1 + w 2 + w 3)), .badValue),
          (decide (w 0 = 1 ∧ ∃ b, b ≠ a ∧ (s.area b).row.enabled = true
            ∧ w 1 < (s.area b).row.firstUnit + (s.area b).row.writeUnits + (s.area b).row.readUnits
            ∧ (s.area b).row.firstUnit < w 1 + w 2 + w 3), .overlap)]
      (∀ st, refused = some st → exec (.loadRowAreas lane tag row ws) s = .next (s.loadRefused m tag st))
      ∧ (refused = none → exec (.loadRowAreas lane tag row ws) s = .next
          ({ s.taken with
              areas := s.areas.set a { s.area a with row := ⟨decide (w 0 = 1), w 1, w 2, w 3⟩ }
            }.replied m tag 0x06 .done 0 []))

/-- LOAD_ROW of a class row (R107, R118): refused in the first case that holds, or replacing the row with the class OPEN, its
counts 0 and its timers restarted, or none for OFF. -/
def Obligations.LoadClassRow : Prop :=
  ∀ (lane : Byte) (tag : Tag) (row : Word) (ws : List Word) (s : State),
    let m := laneOf lane
    let w := word ws
    s.ready m →
    (7 < row.toNat → exec (.loadRowClasses lane tag row ws) s = .next (s.loadRefused m tag .badRow))
    ∧ ∀ n : ClassNo, row.toNat = n.val →
      let refused := firstCase
        [(decide (ws.length < 7), MgmtStatus.badValue),
          (decide (2 < w 0 ∨ 2 < w 1 ∨ 500 < w 2 ∨ 1048575 < w 3 ∨ 32 < w 4 ∨ 2550 < w 5 ∨ w 5 % 10 ≠ 0 ∨ 4096 < w 6),
            .badValue),
          (decide (w 0 ≠ 0 ∧ (w 2 = 0 ∨ w 3 = 0 ∨ w 4 = 0 ∨ w 6 = 0 ∨ w 5 < 10)), .badValue)]
      (∀ st, refused = some st → exec (.loadRowClasses lane tag row ws) s = .next (s.loadRefused m tag st))
      ∧ (refused = none → exec (.loadRowClasses lane tag row ws) s = .next
          ((s.taken.setClass n
            { row :=
                { mode := if w 0 = 0 then .off else if w 0 = 1 then .monitor else .enforce
                  counted := if w 1 = 0 then .reads else if w 1 = 1 then .writes else .both
                  window := w 2, threshold := w 3, hold := w 4, slot := w 5, allowance := w 6 }
              holding := false, windowCount := 0, holdsLeft := 0, slotUsed := 0
              windowTimer := if w 0 = 0 then none else some (w 2 * 1000)
              slotTimer := if w 0 = 0 then none else some (w 5) }).replied m tag 0x06 .done 0 []))

/-- LOAD_ROW of a route row (R143): refused in the first case that holds, or replacing both words, with ALERT_N following the
new route in the same change (R146). -/
def Obligations.LoadRouteRow : Prop :=
  ∀ (lane : Byte) (tag : Tag) (row : Word) (ws : List Word) (s : State),
    let m := laneOf lane
    let w := word ws
    s.ready m →
    (row.toNat = 0 ∨ 24 < row.toNat → exec (.loadRowRoutes lane tag row ws) s = .next (s.loadRefused m tag .badRow))
    ∧ ∀ i : Fin 24, row.toNat = i.val + 1 →
      let refused := firstCase
        [(decide (ws.length < 2), .badValue), (s.mgmt.locked, .locked), (decide (2 < w 0 ∨ 1 < w 1), .badValue)]
      let new : RouteRow := ⟨if w 0 = 0 then .silent else if w 0 = 1 then .notify else .line, decide (w 1 = 1)⟩
      let routes := s.faults.routes.set i new
      (∀ st, refused = some st → exec (.loadRowRoutes lane tag row ws) s = .next (s.loadRefused m tag st))
      ∧ (refused = none → exec (.loadRowRoutes lane tag row ws) s = .next
          ({ s.taken with
              faults :=
                { s.faults with
                  routes := routes
                  alert := s.faults.log.any fun f => (routes[f.report.cause.row]).route == Route.line }
            }.replied m tag 0x06 .done 0 []))

/-- COMMIT (R51): when a row is pending (R49) all 24 STAGED rows replace the ACTIVE copy, the generation rises by one, and the reply
DONE carries it; otherwise STATE with the generation as it is. LOCK (R169): STATE when locked, STAGED_PENDING when a row is
pending, otherwise the lock flag becomes yes. STATUS (R168): the fourteen words, with nothing else changed. -/
def Obligations.CommitLockAndStatus : Prop :=
  ∀ (lane : Byte) (tag : Tag) (s : State),
    let m := laneOf lane
    let pending := ∃ i : Fin 24, s.windows.staged[i] ≠ s.windows.active[i]
    let lanes := fun p : LaneState → Bool => natWord ((allLanes.filter fun l => p (s.lane l)).length)
    s.ready m →
    (pending → exec (.commit lane tag) s = .next
      ({ s.taken with
          windows :=
            { staged := s.windows.staged, active := s.windows.staged, generation := s.windows.generation + 1 }
        }.replied m tag 0x07 .done (s.windows.generation + 1) []))
    ∧ (¬pending → exec (.commit lane tag) s = .next (s.taken.replied m tag 0x07 .state s.windows.generation []))
    ∧ (s.mgmt.locked = true → exec (.lock lane tag) s = .next (s.taken.replied m tag 0x0D .state 0 []))
    ∧ (s.mgmt.locked = false →
        (pending → exec (.lock lane tag) s = .next (s.taken.replied m tag 0x0D .stagedPending 0 []))
        ∧ (¬pending → exec (.lock lane tag) s = .next
            ({ s with mgmt := { s.mgmt with forfeit := false, locked := true } }.replied m tag 0x0D .done 0 [])))
    ∧ exec (.status lane tag) s = .next (s.taken.replied m tag 0x0F .done 0
      [2, natWord m.val, natWord s.mgmt.strapped.val, boolWord s.mgmt.locked, s.mgmt.restarts, s.windows.generation,
        natWord ((allLanes.map fun l => (s.lane l).slots.length).sum), lanes fun r => r.session == .detached,
        lanes fun r => r.session == .active, lanes fun r => r.session == .suspended,
        lanes fun r => r.session == .draining && r.drain == .answered,
        lanes fun r => r.session == .draining && r.drain == .silent, natWord s.faults.log.length,
        boolWord s.faults.incomplete])

/-- INVALIDATE (R81, R83): entries in the scope leave the cache, READING walks in the scope become stale, and the reply counts
the walks marked and the pieces holding; no piece changes. Refused operands are replied BAD_VALUE. -/
def Obligations.InvalidateRemovesTheScope : Prop :=
  ∀ (lane : Byte) (tag : Tag) (ws : List Word) (s : State),
    let m := laneOf lane
    let w := word ws
    s.ready m →
    let bad := ws.length < 3 ∨ 1 < w 0 ∨ (w 0 = 1 ∧ (1048575 < w 1 ∨ 1048575 < w 2 ∨ w 2 < w 1))
    let within := fun i : Nat => w 0 = 0 ∨ (w 1 ≤ i ∧ i ≤ w 2)
    let marked := fun x : Walk => x.reading = true ∧ x.stale = false ∧ within x.index
    let pieces := fun q : Slot =>
      if q.stage = .translating ∨ q.stage = .queued ∨ q.stage = .issued then
        (q.pieces.filter fun p => p.xlat == .done && p.entry.any fun i => decide (within i)).length
      else 0
    (bad → exec (.invalidate lane tag ws) s = .next (s.taken.replied m tag 0x08 .badValue 0 []))
    ∧ (¬bad → exec (.invalidate lane tag ws) s = .next
        ({ s.taken with
            xlat :=
              { s.xlat with
                cache := s.xlat.cache.filter fun e => decide ¬within e.index
                walks :=
                  mapVec (Option.map fun x : Walk => { x with stale := x.stale || decide (marked x) }) s.xlat.walks }
          }.replied m tag 0x08 .done 0
            [natWord ((allWalks.filter fun k => (s.walk k).any fun x => decide (marked x)).length),
              natWord ((allLanes.map fun l => ((s.lane l).slots.map pieces).sum).sum)]))

/-! ### Classes -/

/-- THROTTLE (R115, R116, R117): START makes an OPEN class that is not OFF HOLDING with holds left at its hold field and slot
used 0; RELEASE returns a HOLDING class to OPEN with its window count kept; otherwise STATE and the class as it was. The
reply carries the class's four runtime words after the operation. Refused operands are replied BAD_VALUE. -/
def Obligations.ThrottleHoldsAndReleases : Prop :=
  ∀ (lane : Byte) (tag : Tag) (ws : List Word) (n : ClassNo) (s : State),
    let m := laneOf lane
    let c := s.cls n
    let words := fun c : BudgetClass =>
      [boolWord c.holding, natWord c.windowCount, natWord c.holdsLeft, natWord c.slotUsed]
    let held : BudgetClass := { c with holding := true, holdsLeft := c.row.hold, slotUsed := 0 }
    let opened : BudgetClass := { c with holding := false, holdsLeft := 0, slotUsed := 0 }
    s.ready m →
    (ws.length < 2 ∨ 7 < word ws 0 ∨ 1 < word ws 1 →
      exec (.throttleStart lane tag ws) s = .next (s.taken.replied m tag 0x0A .badValue 0 [])
        ∧ exec (.throttleRelease lane tag ws) s = .next (s.taken.replied m tag 0x0A .badValue 0 []))
    ∧ (2 ≤ ws.length → word ws 0 = n.val → word ws 1 = 0 →
        (c.row.mode ≠ .off → c.holding = false → exec (.throttleStart lane tag ws) s =
          .next ((s.taken.setClass n held).replied m tag 0x0A .done 0 (words held)))
        ∧ (c.row.mode = .off ∨ c.holding = true →
            exec (.throttleStart lane tag ws) s = .next (s.taken.replied m tag 0x0A .state 0 (words c))))
    ∧ (2 ≤ ws.length → word ws 0 = n.val → word ws 1 = 1 →
        (c.holding = true → exec (.throttleRelease lane tag ws) s =
          .next ((s.taken.setClass n opened).replied m tag 0x0A .done 0 (words opened)))
        ∧ (c.holding = false →
            exec (.throttleRelease lane tag ws) s = .next (s.taken.replied m tag 0x0A .state 0 (words c))))

/-- The ends of a class's timers. A window end (R109): the window count returns to 0 and the timer runs again; a hold falls by
one and at 0 the class is OPEN with slot used 0. A slot end (R110): slot used returns to 0 and a new class slot opens. A
class that is OFF has no timers, and the two commands change nothing in it (log 2). -/
def Obligations.ClassTimersEnd : Prop :=
  ∀ (n : ClassNo) (s : State),
    let c := s.cls n
    let windowEnds := fun x : BudgetClass =>
      exec (.windowEnd n) s =
        .next (s.setClass n { x with windowCount := 0, windowTimer := some (c.row.window * 1000) })
    (c.row.mode = .off → exec (.windowEnd n) s = .next s ∧ exec (.slotEnd n) s = .next s)
    ∧ (c.row.mode ≠ .off → c.holding = false → windowEnds c)
    ∧ (c.row.mode ≠ .off → c.holding = true → c.holdsLeft = 1 →
        windowEnds { c with holding := false, holdsLeft := 0, slotUsed := 0 })
    ∧ (c.row.mode ≠ .off → c.holding = true → 1 < c.holdsLeft → windowEnds { c with holdsLeft := c.holdsLeft - 1 })
    ∧ (c.row.mode ≠ .off →
        exec (.slotEnd n) s = .next (s.setClass n { c with slotUsed := 0, slotTimer := some c.row.slot }))

/-! ### The fault log -/

/-- READ_FAULTS and CLEAR_FAULTS (R148, R149, R150): the operand is refused or names a record number; a read returns the records
at or after it, a clear removes those at or before it with the incomplete marker, and ALERT_N follows (R146). A record
travels as the eight words of R183, with the number and the severity of its cause (R138). The two high bytes of the replies'
words are 0 (log 34). -/
def Obligations.ReadFaultsAndClearFaults : Prop :=
  (∀ x ∈
      [(Cause.linkCrc, 1, 0), (.linkFormat, 2, 0), (.linkLost, 3, 2), (.joinRefused, 4, 0), (.refusedRequest, 5, 0),
        (.tagInUse, 6, 1), (.tableFull, 7, 0), (.creditOverrun, 8, 1), (.refusalLost, 9, 1), (.noWindow, 10, 1),
        (.accessDenied, 11, 1), (.windowSpan, 12, 1), (.tableRange, 13, 1), (.entryInvalid, 14, 1), (.entryDenied, 15, 1),
        (.walkFailed, 16, 2), (.thresholdCrossed, 17, 0), (.memCorrected, 18, 0), (.memFailed, 19, 2),
        (.memNoTarget, 20, 1), (.memTimeout, 21, 2), (.memLate, 22, 0), (.mgmtRefused, 23, 1), (.lockViolation, 24, 1)],
      x.1.number = x.2.1 ∧ x.1.row.val + 1 = x.2.1 ∧ x.1.severity.rank = x.2.2)
  ∧ ∀ (lane : Byte) (tag : Tag) (ws : List Word) (s : State),
    let m := laneOf lane
    let n := BitVec.ofNat 16 (word ws 0)
    let marker : Byte := if s.faults.incomplete then 1 else 0
    let found := s.faults.log.filter fun f => decide ((f.seq - n).toNat < 32768)
    let kept := s.faults.log.filter fun f => decide (32768 ≤ (n - f.seq).toNat)
    s.ready m →
    (ws.length < 1 ∨ 65535 < word ws 0 →
      exec (.readFaults lane tag ws) s = .next (s.taken.replied m tag 0x0B .badValue 0 [])
        ∧ exec (.clearFaults lane tag ws) s = .next (s.taken.replied m tag 0x0C .badValue 0 []))
    ∧ (1 ≤ ws.length → word ws 0 ≤ 65535 →
      exec (.readFaults lane tag ws) s = .next
          (s.taken.replied m tag 0x0B .done (word32 (BitVec.ofNat 8 found.length) marker 0 0)
            (found.flatMap FaultRecord.layout))
        ∧ exec (.clearFaults lane tag ws) s = .next
          ({ s.taken with
              faults :=
                { s.faults with
                  log := kept
                  incomplete := false
                  alert := kept.any fun f => (s.faults.routes[f.report.cause.row]).route == Route.line }
            }.replied m tag 0x0C .done
              (word32 (BitVec.ofNat 8 (s.faults.log.length - kept.length)) marker 0 0) []))

/-- A report at the log (R141, R142): it joins the tail while the log holds fewer than 8 records; in a full log it replaces the
newest record of the lowest severity when that is below its own, or is not recorded and sets the incomplete marker. The
routes stay, and ALERT_N follows the log (R146). -/
def Obligations.FullLogKeepsTheSevereRecords : Prop :=
  ∀ (u : FaultUnit) (claimed : Bool) (time : BitVec 32) (rep : Report),
    let v := u.take claimed time rep
    let record : FaultRecord := ⟨u.nextSeq, time, rep⟩
    let rank := rep.cause.severity.rank
    (u.log.length < 8 → v.log = u.log ++ [record] ∧ v.nextSeq = u.nextSeq + 1 ∧ v.incomplete = u.incomplete)
    ∧ (8 ≤ u.log.length → ∀ before old after, u.log = before ++ old :: after →
        (∀ f ∈ u.log, old.rank ≤ f.rank) → (∀ f ∈ after, old.rank < f.rank) → old.rank < rank →
        v.log = before ++ after ++ [record] ∧ v.nextSeq = u.nextSeq + 1 ∧ v.incomplete = u.incomplete)
    ∧ (8 ≤ u.log.length → (∀ f ∈ u.log, rank ≤ f.rank) →
        v.log = u.log ∧ v.nextSeq = u.nextSeq ∧ v.incomplete = true)
    ∧ v.routes = u.routes ∧ v.alert = v.log.any fun f => (v.routes[f.report.cause.row]).route == Route.line

/-- A report is one change of the fault unit, which takes it as FullLogKeepsTheSevereRecords says (R140). Its route and action
(R144, R145, R147): a NOTIFY cause makes a notice while CLAIMED, which joins the queue with the
missed flag or finds it full and sets the marker; the action SUSPEND_LANE suspends the report's lane if it is ACTIVE.
A report changes nothing but the fault unit and that lane. -/
def Obligations.ReportsAreRoutedAndActedOn : Prop :=
  ∀ (rep : Report) (s : State),
    let t := report rep s
    let row := s.faults.routes[rep.cause.row]
    let logged := s.faults.log.length < 8 ∨ ∃ f ∈ s.faults.log, f.rank < rep.cause.severity.rank
    let notified := row.route = .notify ∧ s.mgmt.claim = .claimed
    t.faults = s.faults.take (s.mgmt.claim == .claimed) s.timebase rep
    ∧ (∀ l, row.suspend = true → rep.lane = some l → (s.lane l).session = .active →
      t = { s.setLane l { s.lane l with session := .suspended } with faults := t.faults })
    ∧ ((row.suspend = false ∨ ∀ l, rep.lane = some l → (s.lane l).session ≠ .active) →
        t = { s with faults := t.faults })
    ∧ (notified → s.faults.notices.length < 4 → logged →
        t.faults.notices = s.faults.notices ++ [⟨.fault ⟨s.faults.nextSeq, s.timebase, rep⟩ true, s.faults.missed⟩]
          ∧ t.faults.missed = false)
    ∧ (notified → s.faults.notices.length < 4 → ¬logged → ∀ last, s.faults.log.getLast? = some last →
        t.faults.notices = s.faults.notices ++ [⟨.fault ⟨last.seq, s.timebase, rep⟩ false, s.faults.missed⟩]
          ∧ t.faults.missed = false)
    ∧ (notified → 4 ≤ s.faults.notices.length →
        t.faults.notices = s.faults.notices ∧ t.faults.missed = true)
    ∧ (¬notified → t.faults.notices = s.faults.notices ∧ t.faults.missed = s.faults.missed)

/-! ### RESTART -/

/-- RESTART (R170, R20, R152): every lane that is not DETACHED goes DRAINING SILENT or on to DETACHED, with its slots, stream and
units as a SILENT drain leaves them (R17, R40; log 18), but for a lane that is SILENT already, which stays as it is (log 28);
the notices not being sent are discarded. While an ISSUED or SENDING slot stays the stage is LANES and RESTART is in
progress; when every lane is DETACHED, before the change or by it, the stage is MEMORY while the memory port is at work, and
the final change and its reply DONE come at once when it is at rest (R171, R172). -/
def Obligations.RestartBegins : Prop :=
  ∀ (lane : Byte) (tag : Tag) (s : State),
    let m := laneOf lane
    let op : Operation := ⟨.restart, m, tag, false⟩
    let sending : Bool := s.link.tx.any fun x => x.source == .notice
    let faults := s.faults.discardNotices (if sending then 1 else 0)
    s.ready m → DrainLaw s → TagLaw s →
    ∃ t : State, exec (.restart lane tag) s = .next t ∧ t.faults = faults ∧ t.link = s.link ∧ t.agents = s.agents
      ∧ t.windows = s.windows ∧ t.portRow = s.portRow ∧ t.mgmt.claim = .claimed ∧ t.mgmt.manager = some m
      ∧ t.mgmt.locked = s.mgmt.locked
      ∧ (∀ l, (s.lane l).session = .detached ∨ (s.lane l).drain = .silent → t.lane l = s.lane l)
      ∧ (∀ l, (s.lane l).session ≠ .detached → (s.lane l).drain ≠ .silent →
          let r := s.lane l
          let kept := r.slots.filter Slot.survives
          (kept ≠ [] → (t.lane l).session = .draining ∧ (t.lane l).drain = .silent ∧ (t.lane l).closingOwed = none
              ∧ (t.lane l).credit = r.credit)
            ∧ (kept = [] → (t.lane l).session = .detached ∧ (t.lane l).drain = .none ∧ (t.lane l).credit = 0
                ∧ (t.lane l).creditWaiting = none)
            ∧ (t.lane l).slots = kept ∧ (t.lane l).number = r.number ∧ (t.lane l).issued = r.issued
            ∧ (t.lane l).stream = silentStream (s.link.tx.any fun x => x.source == .stream l) r.stream
            ∧ (s.aloneInArea l → t.area (s.agent l).area =
                (s.area (s.agent l).area).without (r.slots.filter fun q => !q.survives)))
      ∧ ((∃ l, ∃ q ∈ (s.lane l).slots, (s.lane l).session ≠ .detached ∧ (q.stage = .issued ∨ q.stage = .sending)) →
          t.mgmt = { s.taken.mgmt with op := some op, stage := .lanes } ∧ t.port = s.port ∧ t.classes = s.classes)
      ∧ ((∀ l, (s.lane l).session ≠ .detached → (s.lane l).drain ≠ .silent
            ∧ ∀ q ∈ (s.lane l).slots, q.stage ≠ .issued ∧ q.stage ≠ .sending) →
          (∀ l, (t.lane l).session = .detached)
            ∧ (¬s.memoryAtRest →
                t.mgmt = { s.taken.mgmt with op := some op, stage := .memory } ∧ t.port = s.port
                  ∧ t.classes = s.classes ∧ t.xlat.cache = s.xlat.cache)
            ∧ (s.memoryAtRest →
                t.mgmt =
                    { s.taken.mgmt with
                      restarts := s.mgmt.restarts + 1
                      reply := some ⟨m, tag, (s.lane m).number, 0x0E, .done, 0, []⟩ }
                  ∧ t.port = s.restartEnded.port ∧ t.classes = s.restartEnded.classes ∧ t.xlat.cache = []
                  ∧ ∀ w, t.walk w = none))
      ∧ ((∀ l, (s.lane l).session = .detached) → ¬s.memoryAtRest →
          t = { s.taken with faults := faults, mgmt := { s.taken.mgmt with op := some op, stage := .memory } })
      ∧ ((∀ l, (s.lane l).session = .detached) → s.memoryAtRest →
          t = ({ s.taken with faults := faults }.restartEnded).replied m tag 0x0E .done 0 [])

/-- The two stages of RESTART and its final reply (R161, R171, R172): RESTART_STAGE_MEMORY, RESTART_FINAL_CHANGE and
FINAL_REPLY_HANDED take the change where its condition holds, and change nothing where it does not (log 1, log 2). -/
def Obligations.RestartEndsWithTheFinalChange : Prop :=
  ∀ s : State,
    let quiet := s.memoryAtRest
    let away := ∀ l, (s.lane l).session = .detached
    let ended := fun o : Operation => s.restartEnded.replied o.lane o.tag o.kind.code .done 0 []
    (s.mgmt.stage ≠ .lanes ∨ ¬away → exec .restartStageMemory s = .next s)
    ∧ (s.mgmt.stage = .lanes → away → ¬quiet →
        exec .restartStageMemory s = .next { s with mgmt := { s.mgmt with stage := .memory } })
    ∧ (s.mgmt.stage ≠ .memory ∨ ¬quiet → exec .restartFinalChange s = .next s)
    ∧ (∀ o, s.mgmt.op = some o →
        (s.mgmt.forfeit = true → (s.mgmt.stage = .lanes → away → quiet → exec .restartStageMemory s = .next s.restartEnded)
          ∧ (s.mgmt.stage = .memory → quiet → exec .restartFinalChange s = .next s.restartEnded))
        ∧ (s.mgmt.forfeit = false → s.mgmt.reply = none →
            (s.mgmt.stage = .lanes → away → quiet → exec .restartStageMemory s = .next (ended o))
            ∧ (s.mgmt.stage = .memory → quiet → exec .restartFinalChange s = .next (ended o)))
        ∧ (s.mgmt.forfeit = false → s.mgmt.reply.isSome → s.mgmt.stage = .memory → quiet →
            exec .restartFinalChange s = .next
              { s.restartEnded with mgmt := { s.restartEnded.mgmt with op := some { o with ended := true } } }))
    ∧ (∀ o, s.mgmt.op = some o → o.ended = true →
        (s.mgmt.forfeit = true → exec .finalReplyHanded s = .next { s with mgmt := { s.mgmt with op := none } })
        ∧ (s.mgmt.forfeit = false → s.mgmt.reply = none → exec .finalReplyHanded s = .next
            ({ s with mgmt := { s.mgmt with op := none } }.replied o.lane o.tag o.kind.code .done 0 []))
        ∧ (s.mgmt.forfeit = false → s.mgmt.reply.isSome → exec .finalReplyHanded s = .next s))
    ∧ ((∀ o, s.mgmt.op = some o → o.ended = false) → exec .finalReplyHanded s = .next s)

/-- The events of the part while RESTARTING (R20, R84, R136, R161, R171, R172): a lane's entry to DETACHED, a grant of a walk, a
response, a timeout, the end of a transmission and link loss have the effect they have outside RESTART, and the test of R171
follows in the same change. While a lane holds its session the stage stays LANES; once every lane is DETACHED it is MEMORY
while the memory port works, and the final change is taken when it rests, with its reply DONE, kept waiting for a full slot,
or discarded as forfeit. What each event does outside RESTART the other statements say. -/
def Obligations.EventsCarryRestartOn : Prop :=
  ∀ (c : Instr) (s : State), s.mgmt.stage ≠ .none → RestartLaw s → eventOfRestart c →
    ∃ t : State, exec c { s with mgmt := { s.mgmt with stage := .none } } = .next t ∧ t.mgmt.stage = .none
      ∧ t.mgmt.op = s.mgmt.op ∧ t.mgmt.restarts = s.mgmt.restarts
      ∧ ((∃ l, (t.lane l).session ≠ .detached) →
          exec c s = .next { t with mgmt := { t.mgmt with stage := .lanes } })
      ∧ ((∀ l, (t.lane l).session = .detached) → ¬t.memoryAtRest →
          exec c s = .next { t with mgmt := { t.mgmt with stage := .memory } })
      ∧ ((∀ l, (t.lane l).session = .detached) → t.memoryAtRest →
          ∀ m tag, s.mgmt.op = some ⟨.restart, m, tag, false⟩ →
            (t.mgmt.forfeit = true → exec c s = .next t.restartEnded)
            ∧ (t.mgmt.forfeit = false → t.mgmt.reply = none →
                exec c s = .next (t.restartEnded.replied m tag 0x0E .done 0 []))
            ∧ (t.mgmt.forfeit = false → t.mgmt.reply.isSome → exec c s = .next
                { t.restartEnded with
                  mgmt := { t.restartEnded.mgmt with op := some ⟨.restart, m, tag, true⟩ } }))

/-! ### Requests -/

/-- A READ or WRITE that fails one of the nine checks of R24 is refused with the code of the first that fails, and changes no
slot, list or count (R24, R25, R177). -/
def Obligations.RequestIsRefusedByTheFirstCheck : Prop :=
  ∀ (lane : Byte) (tag : Tag) (number : Byte) (address : BitVec 32) (length : BitVec 16) (data : List Byte) (s : State),
    let l := laneOf lane
    let r := s.lane l
    let fault := fun c : Cause => [({ cause := c, lane := some l, tag := some tag } : Report)]
    let refused := fun write : Bool => firstCase
      [(decide (s.mgmt.stage ≠ .none), (RefusalCode.notReady, [])),
        (decide (r.session = .detached), (.notJoined, fault .refusedRequest)),
        (decide (number ≠ r.number), (.staleSession, fault .refusedRequest)),
        (decide (r.session = .suspended), (.suspended, fault .refusedRequest)),
        (decide (r.session = .draining), (.draining, fault .refusedRequest)),
        (decide (length.toNat = 0 ∨ 256 < length.toNat ∨ (write = true ∧ data.length ≠ length.toNat)),
          (.badRequest, [{ cause := .linkFormat, lane := some l }])),
        (decide (∃ q ∈ r.slots, q.tag = tag), (.tagInUse, fault .tagInUse)),
        (decide (64 ≤ (allLanes.map fun k => (s.lane k).slots.length).sum), (.tableFull, fault .tableFull)),
        (write && decide (r.credit < (length.toNat + 63) / 64), (.creditOverrun, fault .creditOverrun))]
    s.link.state = .up → s.noClaimOf l →
    (∀ x, refused false = some x →
      exec (.read lane tag number address length) s = .next (s.requestRefused l tag address x.1 x.2))
    ∧ (∀ x, refused true = some x →
      exec (.write lane tag number address length data) s = .next (s.requestRefused l tag address x.1 x.2))

/-- Decode against the ACTIVE copy (R54 to R63): the lowest row that admits the first byte decides; the failures in their order;
the capture and the pieces of each window kind. -/
def Obligations.TheLowestAdmittingRowDecides : Prop :=
  ∀ (rq : Request) (s : State), 0 < rq.length →
    let first := rq.address.toNat
    let last := first + rq.length - 1
    let admits := fun w : WindowRow => w.enabled = true ∧ w.lanes.getLsbD rq.lane.val = true
      ∧ w.base.toNat ≤ first ∧ first < w.base.toNat + w.pages * 4096
    let generation := s.windows.generation
    ((∀ j : Fin 24, ¬admits s.windows.active[j]) → s.decode rq = .failed .noWindow .noWindow)
    ∧ ∀ i : Fin 24, let w := s.windows.active[i]
      let offset := first - w.base.toNat
      let inPage := first % 4096
      let permitted := (if rq.dir = .read then w.permitRead else w.permitWrite) = true
        ∧ (w.guarded = true → (s.agent rq.lane).privileged = true)
      let piece := fun n e : Nat => (⟨none, n, .waiting, none, .pending, some (w.tableOffset + offset / 4096 + e)⟩ : Piece)
      admits w → (∀ j : Fin 24, j < i → ¬admits s.windows.active[j]) →
      (w.base.toNat + w.pages * 4096 ≤ last → s.decode rq = .failed .windowSpan .windowSpan)
      ∧ (last < w.base.toNat + w.pages * 4096 →
        (¬permitted → s.decode rq = .failed .denied .accessDenied)
        ∧ (permitted →
          (w.kind = .sink → s.decode rq = .sink ⟨i, .sink, generation, none, none, none⟩)
          ∧ (w.kind = .direct → s.decode rq =
              .direct ⟨i, .direct, generation, some (offset / 4096), some w.targetPage, none⟩
                (BitVec.ofNat 36 (w.targetPage * 4096 + offset)))
          ∧ (w.kind = .translated → s.decode rq =
              .translated ⟨i, .translated, generation, some (offset / 4096), none, some w.tableOffset⟩
                (if inPage + rq.length ≤ 4096 then [piece rq.length 0]
                else [piece (4096 - inPage) 0, piece (rq.length - (4096 - inPage)) 1]))))

/-- An accepted READ (R26, R27, R35, R58, R61, R63): a slot at the tail of its lane's list, QUEUED with its one piece for a DIRECT
row; COMPLETE with OK for a SINK row, or with the decode failure's status and its fault. The head is answered when it is
COMPLETE and no answer of the lane is in its stream. Nothing else of the part changes; that no walk holds a piece of a slot that
is not in its list, and every entry of the waiting list a piece, is WaiterLaw. -/
def Obligations.ReadIsAccepted : Prop :=
  ∀ (lane : Byte) (tag : Tag) (number : Byte) (address : BitVec 32) (length : BitVec 16) (s : State),
    let l := laneOf lane
    let r := s.lane l
    let n := length.toNat
    let decoded := s.decode ⟨l, tag, number, .read, address, n, []⟩
    let slots := fun c ps st status =>
      r.slots ++ [(⟨tag, r.number, .read, address, n, c, ps, st, status, []⟩ : Slot)]
    let run := exec (.read lane tag number address length) s
    let completed := fun (c : Option Capture) (status : RespStatus) (then_ : State → State) =>
      let list := slots c [] .complete (some status)
      s.noWaiterOf l tag → (∀ e ∈ s.xlat.waiting, e.waiters ≠ []) → ∀ h, list.head? = some h →
        (h.stage = .complete → r.noAnswer →
          run = .next (then_ (s.setLane l { r with slots := list, stream := r.stream ++ [.answer h.tag] })))
        ∧ (h.stage ≠ .complete ∨ ¬r.noAnswer → run = .next (then_ (s.setLane l { r with slots := list })))
    s.accepting l tag number length →
    (∀ c a, decoded = .direct c a → run = .next
      (s.setLane l { r with slots := slots (some c) [⟨some a, n, .notNeeded, none, .pending, none⟩] .queued none }))
    ∧ (∀ c, decoded = .sink c → completed (some c) .ok id)
    ∧ (∀ status cause, decoded = .failed status cause →
        completed none status (report { cause := cause, lane := some l, tag := some tag, link := some address }))

/-- An accepted WRITE (R26, R91): its units leave credit committed and join write occupied, and the payload lies in as many free
units of the write share, 64 bytes a unit, with every other byte of the staging buffer as it was; which free units is the
model's choice (log 10). One that is COMPLETE from acceptance (R27, R33, R58, R63, R93) gives its units back in the same
change, and the grant rule then sees that much more ungranted space (R102), before the fault's action can suspend the lane
(log 7). A WRITE to a TRANSLATED row is in LookupHitsMissesOrFails. -/
def Obligations.WriteIsAccepted : Prop :=
  ∀ (lane : Byte) (tag : Tag) (number : Byte) (address : BitVec 32) (length : BitVec 16) (data : List Byte) (s : State),
    let l := laneOf lane
    let r := s.lane l
    let n := length.toNat
    let a := (s.agent l).area
    let area := s.area a
    let need := (n + 63) / 64
    let units := s.unitsOfWrite l n
    let decoded := s.decode ⟨l, tag, number, .write, address, n, data⟩
    let run := exec (.write lane tag number address length data) s
    let free := area.row.writeUnits - (area.writeOccupied + (r.credit - need))
    let granted := 0 < free
      ∧ ((s.agent l).quantum ≤ free ∨ (area.writeOccupied = 0 ∧ r.credit - need = 0))
    let completed := fun (c : Option Capture) (status : RespStatus) (t : State) =>
      run = .next t
        ∧ (t.lane l).slots = r.slots ++ [⟨tag, r.number, .write, address, n, c, [], .complete, some status, []⟩]
        ∧ (r.slots = [] → r.noAnswer → (t.lane l).stream = r.stream ++ [.answer tag])
        ∧ ((∃ h, r.slots.head? = some h ∧ h.stage ≠ .complete) ∨ ¬r.noAnswer → (t.lane l).stream = r.stream)
        ∧ (∀ b, t.area b = s.area b) ∧ Memory.dropped s.staging t.staging units
        ∧ (granted → (t.lane l).credit = r.credit - need + free
            ∧ (t.lane l).creditWaiting = some (r.creditWaiting.getD 0 + free))
        ∧ (¬granted → (t.lane l).credit = r.credit - need ∧ (t.lane l).creditWaiting = r.creditWaiting)
        ∧ (∀ k, k ≠ l → t.lane k = s.lane k) ∧ t.port = s.port ∧ t.classes = s.classes ∧ t.link = s.link
        ∧ t.mgmt = s.mgmt
    s.accepting l tag number length → data.length = n → need ≤ r.credit → units.length = need →
    (∀ c x, decoded = .direct c x → ∃ t : State, run = .next t
      ∧ t.lane l =
        { r with
          slots := r.slots
            ++ [⟨tag, r.number, .write, address, n, some c, [⟨some x, n, .notNeeded, none, .pending, none⟩], .queued, none,
              units.map fun u => ⟨u, true⟩⟩]
          credit := r.credit - need }
      ∧ t.area a = { area with writeOccupied := area.writeOccupied + need }
      ∧ Memory.placed s.staging t.staging units data
      ∧ (∀ k, k ≠ l → t.lane k = s.lane k) ∧ (∀ b, b ≠ a → t.area b = s.area b) ∧ t.faults = s.faults
      ∧ t.port = s.port ∧ t.classes = s.classes ∧ t.link = s.link ∧ t.mgmt = s.mgmt ∧ t.xlat = s.xlat)
    ∧ (∀ c, decoded = .sink c → ∃ t, completed (some c) .ok t ∧ t.faults = s.faults)
    ∧ (∀ status cause, decoded = .failed status cause → ∃ t, completed none status t
        ∧ t.faults = s.faults.take (s.mgmt.claim == .claimed) s.timebase
            { cause := cause, lane := some l, tag := some tag, link := some address })

/-- An accepted READ or WRITE to a TRANSLATED row, of one piece or two (R64, R65, R71 to R74, R76, R28). Each piece is looked up:
beyond the entry count it fails with TABLE_RANGE; a hit gives it its address, or is denied with the address it would have
had; a miss joins the waiters of its index: of the walk slot that holds it, else of the entry of the waiting list that holds
it, else a new entry at the list's tail, which a FREE walk slot takes. The slot is TRANSLATING while a piece waits, QUEUED
when every piece is DONE, and COMPLETE with the status of the lower failing piece when one fails (R74), with the reports of
the failing pieces in turn, the lower first (log 6). A WRITE's units and bytes are as WriteIsAccepted has them, and a failed
one gives them back (R93; log 7, log 10). -/
def Obligations.LookupHitsMissesOrFails : Prop :=
  ∀ (write : Bool) (lane : Byte) (tag : Tag) (number : Byte) (address : BitVec 32) (length : BitVec 16) (data : List Byte)
    (s : State) (c : Capture) (ps : List Piece),
    let l := laneOf lane
    let r := s.lane l
    let n := length.toNat
    let dir : Dir := if write then .write else .read
    let a := (s.agent l).area
    let area := s.area a
    let need := if write then (n + 63) / 64 else 0
    let units := if write then s.unitsOfWrite l n else []
    let run :=
      if write then exec (.write lane tag number address length data) s
      else exec (.read lane tag number address length) s
    let named : Report := { cause := .tableRange, lane := some l, tag := some tag, link := some address }
    let looked := fun (p : Piece) (position : Nat) =>
      let i := p.entry.getD 0
      if s.portRow.entryCount ≤ i then ({ p with xlat := .failed }, some RespStatus.translationFault, [named])
      else match s.xlat.cache.find? fun e => e.index == i with
        | none => (p, none, [])
        | some e =>
          let x := BitVec.ofNat 36 (e.frame.toNat * 4096 + position)
          if (if write then e.writable else e.readable) then ({ p with xlat := .done, address := some x }, none, [])
          else ({ p with xlat := .failed }, some .denied, [{ named with cause := .entryDenied, mem := some x }])
    let results := (ps.zip [address.toNat % 4096, 0]).map fun x => looked x.1 x.2
    let pieces := results.map (·.1)
    let failure := (results.filterMap (·.2.1)).head?
    let slot : Slot := ⟨tag, r.number, dir, address, n, some c, pieces,
      if failure.isSome then .complete else if pieces.all (fun p => p.xlat == .done) then .queued else .translating,
      failure, if failure.isSome then [] else units.map fun u => ⟨u, true⟩⟩
    let free := area.row.writeUnits - (area.writeOccupied + (r.credit - need))
    let granted := write = true ∧ 0 < free
      ∧ ((s.agent l).quantum ≤ free ∨ (area.writeOccupied = 0 ∧ r.credit - need = 0))
    let ref := fun upper : Bool => (⟨l, tag, upper⟩ : PieceRef)
    let entry := fun p : Piece => p.entry.getD 0
    let misses := fun p : Piece => s.portRow.entryCount > entry p ∧ ∀ e ∈ s.xlat.cache, e.index ≠ entry p
    let holds := fun (i : Nat) (w : WalkNo) => ∃ x, s.walk w = some x ∧ x.index = i
    let bothBusy := ∀ w, s.walk w ≠ none
    s.accepting l tag number length →
    (write = true → data.length = n ∧ need ≤ r.credit ∧ units.length = need) →
    s.decode ⟨l, tag, number, dir, address, n, if write then data else []⟩ = .translated c ps →
    (∃ t : State, run = .next t ∧ (t.lane l).slots = r.slots ++ [slot] ∧ t.xlat.cache = s.xlat.cache
      ∧ t.faults = s.faultsAfter (results.flatMap (·.2.2))
      ∧ (failure = none →
          t.lane l = { r with slots := r.slots ++ [slot], credit := r.credit - need }
            ∧ t.area a = { area with writeOccupied := area.writeOccupied + need } ∧ (∀ b, b ≠ a → t.area b = s.area b)
            ∧ Memory.placed s.staging t.staging units (if write then data else [])
            ∧ ∀ k (p : Piece), ps[k]? = some p → misses p →
                (∃ w x, t.walk w = some x ∧ x.index = entry p ∧ ref (k == 1) ∈ x.waiters)
                  ∨ ∃ x ∈ t.xlat.waiting, x.index = entry p ∧ ref (k == 1) ∈ x.waiters)
      ∧ (failure.isSome →
          (r.slots = [] → r.noAnswer → (t.lane l).stream = r.stream ++ [.answer tag])
            ∧ ((∃ h, r.slots.head? = some h ∧ h.stage ≠ .complete) ∨ ¬r.noAnswer → (t.lane l).stream = r.stream)
            ∧ (granted → (t.lane l).credit = r.credit - need + free
                ∧ (t.lane l).creditWaiting = some (r.creditWaiting.getD 0 + free))
            ∧ (¬granted → (t.lane l).credit = r.credit - need ∧ (t.lane l).creditWaiting = r.creditWaiting)
            ∧ (∀ b, t.area b = s.area b) ∧ Memory.dropped s.staging t.staging units ∧ t.noWaiterOf l tag)
      ∧ (∀ k, k ≠ l → t.lane k = s.lane k) ∧ t.port = s.port ∧ t.classes = s.classes ∧ t.link = s.link
      ∧ t.mgmt = s.mgmt)
    ∧ (∀ p, ps = [p] → misses p → s.xlat.waiting = [] ∨ bothBusy →
        let i := entry p
        (∀ w x, s.walk w = some x → x.index = i → (∀ v, v < w → ¬holds i v) →
          ∃ t, run = .next t
            ∧ t.xlat =
              { s.xlat with walks := s.xlat.walks.set w (some { x with waiters := x.waiters ++ [ref false] }) })
        ∧ ((∀ w, ¬holds i w) → bothBusy → ∀ before x after, s.xlat.waiting = before ++ x :: after → x.index = i →
            (∀ y ∈ before ++ after, y.index ≠ i) →
            ∃ t, run = .next t
              ∧ t.xlat =
                { s.xlat with waiting := before ++ { x with waiters := x.waiters ++ [ref false] } :: after })
        ∧ ((∀ w, ¬holds i w) → bothBusy → (∀ y ∈ s.xlat.waiting, y.index ≠ i) →
            ∃ t, run = .next t ∧ t.xlat = { s.xlat with waiting := s.xlat.waiting ++ [⟨i, [ref false]⟩] })
        ∧ (∀ w, (∀ v, ¬holds i v) → s.walk w = none → (∀ v, v < w → s.walk v ≠ none) →
            ∃ t, run = .next t
              ∧ t.xlat =
                { s.xlat with
                  walks := s.xlat.walks.set w (some ⟨false, i, [ref false], false, s.xlat.nextAge⟩)
                  nextAge := s.xlat.nextAge + 1 }))
    ∧ (∀ p q, ps = [p, q] → misses p → misses q → (∀ w, s.walk w = none) → s.xlat.waiting = [] →
        ∃ t, run = .next t
          ∧ t.walk 0 = some ⟨false, entry p, [ref false], false, s.xlat.nextAge⟩
          ∧ t.walk 1 = some ⟨false, entry q, [ref true], false, s.xlat.nextAge + 1⟩
          ∧ t.xlat.waiting = [])

/-! ### The memory port -/

/-- The arbiter's choice among lanes: when a lane offers a slot (R29, R94, R113, R130); URGENT candidates in round robin (R131),
then the run's lane while its tenure lasts, then NORMAL candidates in round robin (R132). -/
def Obligations.TheArbiterChoosesInOrder : Prop :=
  ∀ (l : Lane) (s : State),
    let candidate := fun (p : Priority) (k : Lane) => (s.agent k).priority = p ∧ ∃ q, s.offers k q
    let first := fun (p : Priority) (last : Lane) =>
      candidate p l ∧ ∀ k, candidate p k → lanesPast last l ≤ lanesPast last k
    let port := s.port
    (∀ q, s.offer l = some q ↔ s.offers l q)
    ∧ (first .urgent port.lastUrgent →
      s.laneChoice = some (l, { port with lastUrgent := l, run := none }))
    ∧ ((∀ k, ¬candidate .urgent k) →
        (∀ n, port.run = some (l, n) → candidate .normal l → n < s.portRow.tenure →
          s.laneChoice = some (l, { port with lastNormal := l, run := some (l, n + 1) }))
        ∧ ((∀ k n, port.run = some (k, n) → ¬(candidate .normal k ∧ n < s.portRow.tenure)) →
            (first .normal port.lastNormal →
              s.laneChoice = some (l, { port with lastNormal := l, run := some (l, 1) }))
            ∧ ((∀ k, ¬candidate .normal k) → s.laneChoice = none)))

/-- The charge of a granted request (R111, R112): the window count and, while HOLDING, slot used rise by its units; a crossing
raises THRESHOLD_CROSSED and in ENFORCE enters or renews the hold; an OFF class or an uncounted kind is not charged. -/
def Obligations.GrantsAreChargedToTheClass : Prop :=
  ∀ (l : Lane) (dir : Dir) (n : Nat) (s : State),
    let c := s.cls (s.agent l).cls
    let counted := c.row.mode ≠ .off
      ∧ (c.row.counted = .both ∨ (c.row.counted = .reads ∧ dir = .read) ∨ (c.row.counted = .writes ∧ dir = .write))
    let count := min (c.windowCount + n) 4294967295
    let used := if c.holding = true then c.slotUsed + n else c.slotUsed
    let charged : BudgetClass := { c with windowCount := count, slotUsed := used }
    let crosses := c.windowCount < c.row.threshold ∧ c.row.threshold ≤ count
    let fault : Report := { cause := .thresholdCrossed, cls := some (s.agent l).cls }
    (¬counted → chargeClass l dir n s = (s, []))
    ∧ (counted → ¬crosses → chargeClass l dir n s = (s.setClass (s.agent l).cls charged, []))
    ∧ (counted → crosses → c.row.mode = .monitor →
        chargeClass l dir n s = (s.setClass (s.agent l).cls charged, [fault]))
    ∧ (counted → crosses → c.row.mode = .enforce → chargeClass l dir n s =
        (s.setClass (s.agent l).cls
          { charged with
            holding := true, holdsLeft := c.row.hold, slotUsed := if c.holding = true then used else 0 }, [fault]))

/-- The beats of a piece (R99, R100, R101): from the beat of its first byte to the beat of its last, with a mask position set where
the byte belongs to the piece; a WRITE's beats carry at each set position the piece's byte of that memory address, and the
bytes taken from a READ's beats are exactly its byte length, in order of memory address, each from its own position. -/
def Obligations.BeatsCarryThePiece : Prop :=
  ∀ (a : MemAddr) (length start free : Nat) (m : Memory) (units : List Nat) (answer : List Beat), 0 < length →
    let beats := (a.toNat + length - 1) / 8 - a.toNat / 8 + 1
    let masks := pieceMasks a length
    let sent := writeBeats m units free start a length
    let taken := maskedBytes masks answer
    masks.length = beats ∧ sent.length = beats
      ∧ (∀ i p, i < beats → p < 8 →
          let x := (a.toNat / 8 + i) * 8 + p
          let mine := a.toNat ≤ x ∧ x < a.toNat + length
          (∃ mask, masks[i]? = some mask ∧ (mask.getLsbD p = true ↔ mine))
            ∧ (mine → ∃ b, sent[i]? = some b ∧ beatByte b p = Memory.place m units free (start + (x - a.toNat))))
      ∧ (answer.length = beats → taken.length = length
          ∧ ∀ k, k < length → ∃ b, answer[(a.toNat + k) / 8 - a.toNat / 8]? = some b
              ∧ taken[k]? = some (beatByte b ((a.toNat + k) % 8)))

/-- The grant of a lane's slot (R29, R95, R100, R121, R123, R133): the slot and its pieces are ISSUED under the FREE ids named, each
with a response timer of the PORT row's timeout, its masks, and for a WRITE its beats out of the units the slot holds; a READ
reserves its units, which free ones is the model's choice (log 10); the class is charged and the issued count rises. Without
enough FREE ids no grant is made (R128), but a NORMAL choice has ended the run whose lane it does not take from the run (R132,
R135); that a choice is made at a GRANT alone is the model's (log 31). Where the command does not name so many different FREE
ids, the lowest are taken (log 9). -/
def Obligations.AGrantIssuesEveryPiece : Prop :=
  ∀ (l : Lane) (q : Slot) (port : MemoryPort) (ids : List MemId) (s : State),
    let r := s.lane l
    let a := (s.agent l).area
    let n := (q.length + 63) / 64
    let charge := chargeClass l q.dir n s
    s.noReadyWalk → s.laneChoice = some (l, port) → s.offer l = some q → r.tags.Nodup → q.pieces.length ≤ 2 →
    let fromRun := ∃ n, s.port.run = some (l, n) ∧ n < s.portRow.tenure
    ((s.freeIds.length < q.pieces.length →
        ((s.agent l).priority = .urgent ∨ fromRun → exec (.grant ids) s = .next s)
        ∧ ((s.agent l).priority = .normal → ¬fromRun →
            exec (.grant ids) s = .next { s with port := { s.port with run := none } }))
    ∧ (q.pieces.length ≤ s.freeIds.length → ¬(ids.length = q.pieces.length ∧ ids.Nodup ∧ ∀ i ∈ ids, s.memId i = .free) →
        exec (.grant ids) s = exec (.grant (s.freeIds.take q.pieces.length)) s)
    ∧ (ids.length = q.pieces.length → ids.Nodup → (∀ i ∈ ids, s.memId i = .free) →
      ∃ t q', exec (.grant ids) s = .next t ∧ (t.lane l).slot? q.tag = some q' ∧ (t.lane l).tags = r.tags
        ∧ (t.lane l).issued = r.issued + 1 ∧ (t.lane l).credit = r.credit ∧ (t.lane l).stream = r.stream
        ∧ (∀ tag, tag ≠ q.tag → (t.lane l).slot? tag = r.slot? tag)
        ∧ q'.stage = .issued ∧ q'.dir = q.dir ∧ q'.length = q.length ∧ q'.status = q.status
        ∧ (q.dir = .write → q'.held = q.held ∧ ∀ b, t.area b = s.area b)
        ∧ (q.dir = .read →
            q'.held = (r.freeUnits (s.area a).row.readShare n).map (fun u => (⟨u, false⟩ : HeldUnit))
              ∧ t.area a = { s.area a with readReserved := (s.area a).readReserved + n }
              ∧ ∀ b, b ≠ a → t.area b = s.area b)
        ∧ (∀ k (p : Piece) i, q.pieces[k]? = some p → ids[k]? = some i →
            let first := p.address.getD 0
            let start := if k = 1 then (q.pieces.head?.map (·.length)).getD 0 else 0
            q'.pieces[k]? = some { p with memId := some i, status := .pending }
              ∧ ∃ x : Transaction, t.memId i = .inUse (.piece ⟨l, q.tag, k == 1⟩) s.portRow.timeout x ∧ x.dir = q.dir
                  ∧ x.address = first ∧ x.masks = pieceMasks first p.length
                  ∧ (q.dir = .read → x.data = [])
                  ∧ (q.dir = .write →
                      ∃ free, x.data = writeBeats s.staging (q.held.map (·.unit)) free start first p.length))
        ∧ (∀ i, i ∉ ids → t.memId i = s.memId i)
        ∧ (t.port.lastUrgent = port.lastUrgent ∧ t.port.lastNormal = port.lastNormal ∧ t.port.run = port.run)
        ∧ t.classes = charge.1.classes
        ∧ (charge.2 = [] → t.faults = s.faults ∧ (t.lane l).session = r.session)
        ∧ (∀ rep, charge.2 = [rep] → t.faults = s.faults.take (s.mgmt.claim == .claimed) s.timebase rep)
        ∧ (∀ k, k ≠ l → t.lane k = s.lane k) ∧ t.staging = s.staging ∧ t.xlat = s.xlat ∧ t.link = s.link
        ∧ t.mgmt = s.mgmt))

/-- The grant of a READY walk slot (R77, R129): the older one, ahead of every lane; it takes the FREE id named, or the lowest where
none is named (log 9), and issues one full beat at the entry's address. With its index beyond the entry count it ends without
a read: every waiter fails with TRANSLATION_FAULT and leaves the waiting list too (R28, R75), one TABLE_RANGE names the first
of them, and the walk slot takes the next index (R76). A failing WRITE gives its units back to its lane's credit (R93, R102,
R103): the grant rule sees the session as it stood, before the fault's action can suspend the lane (log 7). A failing head is
answered (R35). No grant is made without a FREE id, nor with no candidate at all, where there is no choice either (log 31). -/
def Obligations.WalksAreGrantedFirst : Prop :=
  ∀ (w : WalkNo) (x : Walk) (ids : List MemId) (s : State),
    let read := fun i : MemId =>
      { s with
        xlat := { s.xlat with walks := s.xlat.walks.set w (some { x with reading := true }) }
        port :=
          { s.port with
            ids := s.port.ids.set i
              (.inUse (.walk w) s.portRow.timeout
                ⟨.read, BitVec.ofNat 36 (s.portRow.tableBase * 4096 + x.index * 8), [0xFF], []⟩) } }
    let gone := fun l : Lane => x.waiters.filterMap fun p => if p.lane = l then (s.lane l).slot? p.tag else none
    (s.walkFirst w x → x.index < s.portRow.entryCount →
      (∀ i, s.memId i = .free → exec (.grant [i]) s = .next (read i))
      ∧ (∀ i, s.memId i = .free → (∀ j, j < i → s.memId j ≠ .free) → exec (.grant []) s = .next (read i))
      ∧ ((∀ i, s.memId i ≠ .free) → exec (.grant ids) s = .next s))
    ∧ (s.walkFirst w x → s.portRow.entryCount ≤ x.index → s.mgmt.stage = .none →
        (x.waiters = [] → s.nextStands w [] → exec (.grant ids) s = .next { s with xlat := s.xlat.nextIndex w })
        ∧ (s.waitersStand x.waiters → TagLaw s → ∃ t : State, exec (.grant ids) s = .next t
            ∧ (∀ l, (t.lane l).tags = (s.lane l).tags) ∧ t.port = s.port ∧ t.classes = s.classes ∧ t.link = s.link
            ∧ t.mgmt = s.mgmt ∧ t.xlat.cache = s.xlat.cache
            ∧ (∀ p ∈ x.waiters, ∀ q, (s.lane p.lane).slot? p.tag = some q →
                (t.lane p.lane).slot? p.tag = some
                    { q with
                      stage := .complete
                      status := some .translationFault
                      pieces := q.pieces.modify (if p.upper then 1 else 0) fun y => { y with xlat := .failed }
                      held := [] }
                  ∧ t.noWaiterOf p.lane p.tag)
            ∧ (∀ l tag, (∀ p ∈ x.waiters, ¬(p.lane = l ∧ p.tag = tag)) →
                (t.lane l).slot? tag = (s.lane l).slot? tag)
            ∧ (∀ a, t.area a = (s.area a).without (x.waiters.filterMap fun p =>
                if (s.agent p.lane).area = a then (s.lane p.lane).slot? p.tag else none))
            ∧ (∀ l, s.aloneInArea l → (t.lane l).credit = (s.creditAfter l (gone l)).1
                ∧ (t.lane l).creditWaiting = (s.creditAfter l (gone l)).2)
            ∧ s.headsAnswered t gone
            ∧ (x.waiters = [] → t.faults = s.faults)
            ∧ (∀ p ps q, x.waiters = p :: ps → (s.lane p.lane).slot? p.tag = some q →
                t.faults = s.faults.take (s.mgmt.claim == .claimed) s.timebase
                  { cause := .tableRange, lane := some p.lane, tag := some p.tag, link := some q.address })
            ∧ (s.nextStands w x.waiters → t.walk w = (s.xlat.nextIndex w).walks[w]
                ∧ t.xlat.waiting = (s.xlat.nextIndex w).waiting ∧ t.xlat.nextAge = (s.xlat.nextIndex w).nextAge)))
    ∧ (s.noReadyWalk → s.laneChoice = none → exec (.grant ids) s = .next s)

/-- The last outcome of a slot in a lane that is not SILENT (R31 to R34, R93, R96, R97, R124 to R126): the id becomes FREE, or
QUARANTINED at a timeout; the slot is COMPLETE with the worst status of its pieces; a WRITE gives its units back, a READ
fills them with the masked bytes or gives them back, and the counts of its area follow; the grant rule then sees the ungranted
space of an ACTIVE lane (R102), before the fault's action can suspend it (log 7); the port's fault names the address, the lane
and the tag. -/
def Obligations.TheLastOutcomeCompletesTheSlot : Prop :=
  ∀ (i : MemId) (o : Outcome) (beats : List Beat) (ref : PieceRef) (timer : Nat) (txn : Transaction) (q : Slot) (p : Piece)
    (s : State),
    let l := ref.lane
    let r := s.lane l
    let a := (s.agent l).area
    let area := s.area a
    let row := if ref.upper then 1 else 0
    let start := if ref.upper then (q.pieces.head?.map (·.length)).getD 0 else 0
    let status : PieceStatus := match o with
      | .response .ok => .ok
      | .response .corrected => .corrected
      | .response .failed => .failed
      | .response .noTarget => .noTarget
      | .timeout => .timeout
    let command := match o with
      | .response st => Instr.memoryResponse i st beats
      | .timeout => Instr.responseTimeout i
    let pieces := q.pieces.modify row fun p => { p with status := status, memId := none }
    let any := fun st : PieceStatus => ∃ p ∈ pieces, p.status = st
    let fault := fun c : Cause =>
      s.faults.take (s.mgmt.claim == .claimed) s.timebase
        { cause := c, lane := some l, tag := some ref.tag, mem := some txn.address }
    let bytes := maskedBytes txn.masks beats
    let filled := (q.held.filter (·.filled)).length
    let unfilled := (q.held.filter fun u => !u.filled).length
    let occupied := area.writeOccupied - q.held.length
    let free := area.row.writeUnits - (occupied + r.credit)
    let granted := q.dir = .write ∧ r.session = .active ∧ 0 < free
      ∧ ((s.agent l).quantum ≤ free ∨ (occupied = 0 ∧ r.credit = 0))
    s.memId i = .inUse (.piece ref) timer txn → r.slot? ref.tag = some q → r.tags.Nodup → q.stage = .issued →
    q.pieces[row]? = some p → (∀ k (x : Piece), q.pieces[k]? = some x → k ≠ row → x.status ≠ .pending) →
    r.drain ≠ .silent → s.mgmt.stage = .none → txn.dir = q.dir → 0 < p.length →
    ∃ t q', exec command s = .next t ∧ (t.lane l).slot? ref.tag = some q' ∧ (t.lane l).tags = r.tags
      ∧ q'.stage = .complete ∧ q'.pieces = pieces
      ∧ (any .timeout → q'.status = some .timeout)
      ∧ (¬any .timeout → any .failed ∨ any .noTarget → q'.status = some .memoryFault)
      ∧ (¬any .timeout → ¬any .failed → ¬any .noTarget → any .corrected → q'.status = some .corrected)
      ∧ ((∀ x ∈ pieces, x.status = .ok) → q'.status = some .ok)
      ∧ (t.lane l).issued = r.issued - 1
      ∧ t.memId i = (match o with | .response _ => .free | .timeout => .quarantined)
      ∧ (∀ j, j ≠ i → t.memId j = s.memId j)
      ∧ (status = .ok → t.faults = s.faults) ∧ (status = .corrected → t.faults = fault .memCorrected)
      ∧ (status = .failed → t.faults = fault .memFailed) ∧ (status = .noTarget → t.faults = fault .memNoTarget)
      ∧ (status = .timeout → t.faults = fault .memTimeout)
      ∧ (r.slots.head? = some q → r.noAnswer → (t.lane l).stream = r.stream ++ [.answer ref.tag])
      ∧ (∀ h, r.slots.head? = some h → h ≠ q → h.stage ≠ .complete ∨ ¬r.noAnswer → (t.lane l).stream = r.stream)
      ∧ (q.dir = .write → q'.held = [] ∧ t.area a = { area with writeOccupied := occupied })
      ∧ (granted → (t.lane l).credit = r.credit + free
          ∧ (t.lane l).creditWaiting = some (r.creditWaiting.getD 0 + free))
      ∧ (¬granted → (t.lane l).credit = r.credit ∧ (t.lane l).creditWaiting = r.creditWaiting)
      ∧ (q.dir = .read → (q'.status ≠ some .ok ∧ q'.status ≠ some .corrected) → q'.held = []
          ∧ t.area a =
            { area with readReserved := area.readReserved - unfilled, readFilled := area.readFilled - filled })
      ∧ (q.dir = .read → q'.status = some .ok ∨ q'.status = some .corrected →
          (∀ u ∈ q'.held, u.filled = true)
          ∧ t.area a =
            { area with
              readReserved := area.readReserved - unfilled
              readFilled := area.readFilled + (q'.held.length - filled) }
          ∧ (∀ k (u : HeldUnit), q.held[k]? = some u → start / 64 ≤ k → k ≤ (start + p.length - 1) / 64 →
              ⟨u.unit, true⟩ ∈ q'.held)
          ∧ ((q.held.map (·.unit)).Nodup → q'.held.map (·.unit) = q.held.map (·.unit) →
              ∀ k (u : HeldUnit) b, bytes[k]? = some b → q.held[(start + k) / 64]? = some u →
                Memory.read t.staging (u.unit * 64 + (start + k) % 64) = some b))
      ∧ (∀ b, b ≠ a → t.area b = s.area b)
      ∧ (∀ k, k ≠ l → t.lane k = s.lane k) ∧ t.classes = s.classes ∧ t.link = s.link ∧ t.mgmt = s.mgmt

/-- Outcomes that answer nothing. The first of two (R31, R96, R134): its piece takes its status and gives up its id, the slot stays
ISSUED with the other piece as it was, and a READ that was carried out fills its bytes' units. The last in DRAINING SILENT
(R41), of one piece or two, by response or timeout: the slot is discarded unanswered with every unit it holds (R97), and an
emptied list takes the lane to DETACHED (R18), which ends a SESSION RESET that waits on the lane (R16, R161). While
RESTARTING, EventsCarryRestartOn says what follows. In both the id is FREE, or QUARANTINED at a timeout, and the port raises its
fault (R124, R126). -/
def Obligations.OutcomesThatAnswerNothing : Prop :=
  ∀ (i : MemId) (o : Outcome) (beats : List Beat) (ref : PieceRef) (timer : Nat) (txn : Transaction) (q : Slot) (p : Piece)
    (s : State),
    let l := ref.lane
    let r := s.lane l
    let a := (s.agent l).area
    let area := s.area a
    let row := if ref.upper then 1 else 0
    let start := if ref.upper then (q.pieces.head?.map (·.length)).getD 0 else 0
    let status : PieceStatus := match o with
      | .response .ok => .ok
      | .response .corrected => .corrected
      | .response .failed => .failed
      | .response .noTarget => .noTarget
      | .timeout => .timeout
    let command := match o with
      | .response st => Instr.memoryResponse i st beats
      | .timeout => Instr.responseTimeout i
    let carriedOut := q.dir = .read ∧ (status = .ok ∨ status = .corrected)
    let fault := fun c : Cause =>
      s.faults.take (s.mgmt.claim == .claimed) s.timebase
        { cause := c, lane := some l, tag := some ref.tag, mem := some txn.address }
    let bytes := maskedBytes txn.masks beats
    let filled := fun held : List HeldUnit => (held.filter (·.filled)).length
    let common := fun t : State =>
      exec command s = .next t
        ∧ t.memId i = (match o with | .response _ => .free | .timeout => .quarantined)
        ∧ (∀ j, j ≠ i → t.memId j = s.memId j)
        ∧ (status = .ok → t.faults = s.faults) ∧ (status = .corrected → t.faults = fault .memCorrected)
        ∧ (status = .failed → t.faults = fault .memFailed) ∧ (status = .noTarget → t.faults = fault .memNoTarget)
        ∧ (status = .timeout → t.faults = fault .memTimeout)
        ∧ (t.lane l).stream = r.stream ∧ (∀ b, b ≠ a → t.area b = s.area b)
        ∧ (∀ k, k ≠ l → t.lane k = s.lane k) ∧ t.classes = s.classes ∧ t.link = s.link
    s.memId i = .inUse (.piece ref) timer txn → r.slot? ref.tag = some q → r.tags.Nodup → q.stage = .issued →
    s.mgmt.stage = .none → txn.dir = q.dir → q.pieces[row]? = some p → 0 < p.length →
    (∀ x : Piece, q.pieces[1 - row]? = some x → x.status = .pending →
      ∃ (t : State) (q' : Slot), common t ∧ (t.lane l).slot? ref.tag = some q' ∧ q'.stage = .issued ∧ q'.status = q.status
        ∧ q'.pieces = q.pieces.modify row (fun p => { p with status := status, memId := none })
        ∧ (t.lane l).tags = r.tags ∧ (t.lane l).issued = r.issued ∧ (t.lane l).credit = r.credit
        ∧ (∀ tag, tag ≠ ref.tag → (t.lane l).slot? tag = r.slot? tag) ∧ t.mgmt = s.mgmt
        ∧ (¬carriedOut → q'.held = q.held ∧ t.area a = area ∧ t.staging = s.staging)
        ∧ (carriedOut →
            q'.held.length = q.held.length
            ∧ (∀ k (u : HeldUnit), q.held[k]? = some u → q'.held[k]? = some
                { u with filled := u.filled || decide (start / 64 ≤ k ∧ k ≤ (start + p.length - 1) / 64) })
            ∧ t.area a =
              { area with
                readReserved := area.readReserved - (filled q'.held - filled q.held)
                readFilled := area.readFilled + (filled q'.held - filled q.held) }
            ∧ ((q.held.map (·.unit)).Nodup →
                ∀ k (u : HeldUnit) b, bytes[k]? = some b → q.held[(start + k) / 64]? = some u →
                  Memory.read t.staging (u.unit * 64 + (start + k) % 64) = some b)
            ∧ (∀ y, (∀ k (u : HeldUnit), k < bytes.length → q.held[(start + k) / 64]? = some u →
                  y ≠ u.unit * 64 + (start + k) % 64) →
                Memory.read t.staging y = Memory.read s.staging y)))
    ∧ ((∀ k (x : Piece), q.pieces[k]? = some x → k ≠ row → x.status ≠ .pending) → r.session = .draining →
        r.drain = .silent → (∀ x ∈ r.slots, x.stage ≠ .complete) →
      ∃ t : State, common t ∧ (t.lane l).slots = r.slots.filter (fun x => x.tag ≠ ref.tag)
        ∧ (t.lane l).issued = r.issued - 1
        ∧ (r.slots = [q] → (t.lane l).session = .detached ∧ (t.lane l).credit = 0 ∧ (t.lane l).creditWaiting = none
            ∧ s.resetSettled t l)
        ∧ (r.slots ≠ [q] → (t.lane l).session = .draining ∧ (t.lane l).drain = .silent
            ∧ (t.lane l).credit = r.credit ∧ t.mgmt = s.mgmt)
        ∧ t.area a = area.without [q]
        ∧ Memory.dropped s.staging t.staging (q.held.map (·.unit)))

/-- A late response (R127): for a QUARANTINED id it frees the id, for a FREE id it changes no id; both raise MEM_LATE and discard
the response, while RESTARTING too (R136). A RESPONSE_TIMEOUT of an id that is not IN_USE has no timer to expire and changes nothing (log 2). -/
def Obligations.LateResponsesAreDiscarded : Prop :=
  ∀ (i : MemId) (st : MemStatus) (beats : List Beat) (s : State),
    (s.memId i = .free → exec (.memoryResponse i st beats) s = .next (report { cause := .memLate } s))
    ∧ (s.memId i = .quarantined → RestartLaw s → exec (.memoryResponse i st beats) s =
        .next (report { cause := .memLate } { s with port := { s.port with ids := s.port.ids.set i .free } }))
    ∧ (s.memId i = .free ∨ s.memId i = .quarantined → exec (.responseTimeout i) s = .next s)

/-- The outcome of a walk read (R78, R79, R80, R82, R184): a stale walk reads again whatever its outcome; a failed read raises
WALK_FAILED after the port's own fault (that order is log 6); an entry that is not valid is not cached; a valid one joins the
tail of the cache, the head giving way at 32 entries; the walk slot is then FREE and takes the next index (R76). Here no
piece waits on the walk; the waiters are in WaitersAreSettledByTheirWalk, and the walk's end while RESTARTING in
EventsCarryRestartOn. The counter of free values moves by one (log 12),
and beats beyond the first are not looked at (log 14). -/
def Obligations.WalkOutcomesInstallFailOrReadAgain : Prop :=
  ∀ (i : MemId) (w : WalkNo) (x : Walk) (beat : Beat) (more : List Beat) (timer : Nat) (txn : Transaction) (s : State),
    let value := fun k : Nat => beat.getLsbD k
    let entry : CacheEntry := ⟨x.index, beat.extractLsb' 12 24, value 1, value 2⟩
    let after := fun id : IdState => { s with port := { s.port with ids := s.port.ids.set i id }, freeCount := s.freeCount + 1 }
    let ended := fun s : State => { s with xlat := s.xlat.nextIndex w }
    let run := fun st => exec (.memoryResponse i st (beat :: more)) s
    let again := fun s : State =>
      { s with xlat := { s.xlat with walks := s.xlat.walks.set w (some { x with reading := false, stale := false }) } }
    let port := fun c : Cause => ({ cause := c, mem := some txn.address } : Report)
    s.memId i = .inUse (.walk w) timer txn → s.walk w = some x → x.reading = true → s.mgmt.stage = .none →
    (x.stale = true →
      run .ok = .next (again (after .free))
        ∧ run .corrected = .next (report (port .memCorrected) (again (after .free)))
        ∧ run .failed = .next (report (port .memFailed) (again (after .free)))
        ∧ run .noTarget = .next (report (port .memNoTarget) (again (after .free)))
        ∧ exec (.responseTimeout i) s = .next (report (port .memTimeout) (again (after .quarantined))))
    ∧ (x.stale = false → x.waiters = [] → s.nextStands w [] →
        run .failed = .next (report (port .walkFailed) (report (port .memFailed) (ended (after .free))))
          ∧ run .noTarget = .next (report (port .walkFailed) (report (port .memNoTarget) (ended (after .free))))
          ∧ exec (.responseTimeout i) s =
              .next (report (port .walkFailed) (report (port .memTimeout) (ended (after .quarantined))))
          ∧ (value 0 = false →
              run .ok = .next (ended (after .free))
                ∧ run .corrected = .next (report (port .memCorrected) (ended (after .free))))
          ∧ (value 0 = true →
              let t := ended (after .free)
              let u : State :=
                { t with
                  xlat :=
                    { t.xlat with
                      cache := (if s.xlat.cache.length < 32 then s.xlat.cache else s.xlat.cache.tail) ++ [entry] } }
              run .ok = .next u ∧ run .corrected = .next (report (port .memCorrected) u)))

/-- The waiters at the end of their walk, in their order (R78, R79, R80, R28, R65): with a valid entry that permits its request, a
piece takes its address, and its slot is QUEUED when every piece of it is DONE; denied, its slot is COMPLETE with DENIED and
an ENTRY_DENIED of its own. With an entry that is not valid every waiter's slot is COMPLETE with TRANSLATION_FAULT and one
ENTRY_INVALID names the first; with a failed read the same under one WALK_FAILED. A slot that fails gives its units back
(R93), a WRITE's to its lane's credit (R102, R103), leaves every walk (R75) and is answered at the head (R35). The order of the
reports of one change is log 6, and the grant of credit before a fault's action can suspend the lane is log 7. -/
def Obligations.WaitersAreSettledByTheirWalk : Prop :=
  ∀ (i : MemId) (w : WalkNo) (x : Walk) (beat : Beat) (more : List Beat) (timer : Nat) (txn : Transaction) (s : State),
    let bit := fun k : Nat => beat.getLsbD k
    let frame := (beat.extractLsb' 12 24).toNat
    let entry : CacheEntry := ⟨x.index, beat.extractLsb' 12 24, bit 1, bit 2⟩
    let address := fun (p : PieceRef) (q : Slot) =>
      BitVec.ofNat 36 (frame * 4096 + if p.upper then 0 else q.address.toNat % 4096)
    let permits := fun q : Slot => match q.dir with
      | .read => bit 1
      | .write => bit 2
    let slotOf := fun p : PieceRef => (s.lane p.lane).slot? p.tag
    let named := fun (c : Cause) (p : PieceRef) (q : Slot) =>
      ({ cause := c, lane := some p.lane, tag := some p.tag, link := some q.address } : Report)
    let port := fun c : Cause => ({ cause := c, mem := some txn.address } : Report)
    let changed := fun (p : PieceRef) (q : Slot) (f : Piece → Piece) => q.pieces.modify (if p.upper then 1 else 0) f
    let failed := fun (t : State) (status : RespStatus) (p : PieceRef) (q : Slot) =>
      (t.lane p.lane).slot? p.tag = some
          { q with
            stage := .complete, status := some status, pieces := changed p q fun y => { y with xlat := .failed }
            held := [] }
        ∧ t.noWaiterOf p.lane p.tag
    let gone := fun (fails : Slot → Bool) (l : Lane) =>
      x.waiters.filterMap fun p => if p.lane = l then (slotOf p).filter fails else none
    let settled := fun (c : Instr) (id : IdState) (fails : Slot → Bool) (cache : List CacheEntry) (reps : List Report)
        (t : State) =>
      exec c s = .next t ∧ (∀ l, (t.lane l).tags = (s.lane l).tags) ∧ t.memId i = id
        ∧ (∀ j, j ≠ i → t.memId j = s.memId j) ∧ t.xlat.cache = cache ∧ t.faults = s.faultsAfter reps
        ∧ (∀ l tag, (∀ p ∈ x.waiters, ¬(p.lane = l ∧ p.tag = tag)) → (t.lane l).slot? tag = (s.lane l).slot? tag)
        ∧ (∀ a, t.area a = (s.area a).without (x.waiters.filterMap fun p =>
            if (s.agent p.lane).area = a then (slotOf p).filter fails else none))
        ∧ (∀ l, s.aloneInArea l → (t.lane l).credit = (s.creditAfter l (gone fails l)).1
            ∧ (t.lane l).creditWaiting = (s.creditAfter l (gone fails l)).2)
        ∧ s.headsAnswered t (gone fails)
        ∧ (s.nextStands w x.waiters → t.walk w = (s.xlat.nextIndex w).walks[w]
            ∧ t.xlat.waiting = (s.xlat.nextIndex w).waiting)
        ∧ t.classes = s.classes ∧ t.link = s.link ∧ t.mgmt = s.mgmt
    let firstNamed := match x.waiters with
      | [] => []
      | p :: _ => ((slotOf p).map (named .entryInvalid p)).toList
    s.memId i = .inUse (.walk w) timer txn → s.walk w = some x → x.reading = true → x.stale = false →
    s.waitersStand x.waiters → s.mgmt.stage = .none → TagLaw s →
    (∀ st own, (st, own) ∈ [(MemStatus.ok, []), (.corrected, [port .memCorrected])] →
      let c := Instr.memoryResponse i st (beat :: more)
      (bit 0 = true → ∃ t, settled c .free (fun q => !permits q)
          ((if s.xlat.cache.length < 32 then s.xlat.cache else s.xlat.cache.tail) ++ [entry])
          (own ++ x.waiters.filterMap fun p => (slotOf p).bind fun q =>
            if permits q then none else some { named .entryDenied p q with mem := some (address p q) }) t
        ∧ ∀ p ∈ x.waiters, ∀ q, slotOf p = some q →
            let pieces := changed p q fun y => { y with xlat := .done, address := some (address p q) }
            (permits q = true → (t.lane p.lane).slot? p.tag = some
              { q with
                pieces := pieces
                stage := if pieces.all fun y => y.xlat == .done then .queued else .translating })
            ∧ (permits q = false → failed t .denied p q))
      ∧ (bit 0 = false → ∃ t, settled c .free (fun _ => true) s.xlat.cache (own ++ firstNamed) t
          ∧ ∀ p ∈ x.waiters, ∀ q, slotOf p = some q → failed t .translationFault p q))
    ∧ (∀ c id own,
        (c, id, own) ∈
          [(Instr.memoryResponse i .failed (beat :: more), IdState.free, Cause.memFailed),
            (.memoryResponse i .noTarget (beat :: more), .free, .memNoTarget),
            (.responseTimeout i, .quarantined, .memTimeout)] →
        ∃ t, settled c id (fun _ => true) s.xlat.cache [port own, port .walkFailed] t
          ∧ ∀ p ∈ x.waiters, ∀ q, slotOf p = some q → failed t .translationFault p q)

/-! ### The transmitter -/

/-- The start of a transmission above the response streams (R103, R145, R178, R179): the management reply, then the oldest notice,
addressed to the manager, or every notice removed unsent when the part is not CLAIMED, then the oldest refusal, then the
waiting CREDIT of the first eligible lane after the last credit lane; each laid out as R180 to R183 give it, with the codes
of R181; byte 5 of a MGMT_REPLY, to which no rule gives a value, is 0 (log 35). With nothing to send,
with the transmitter busy or the link not UP, nothing starts. The tag of a CREDIT and of a NOTICE no rule gives (log 13); the
number of a NOTICE is its lane's as it stands (log 33), and the two high bytes of its word are 0 (log 34). -/
def Obligations.TheFirstEligibleItemStarts : Prop :=
  ([MgmtStatus.done, .busy, .notReady, .notManager, .badTable, .badRow, .badValue, .rowInUse, .overlap, .locked,
      .stagedPending, .notPermitted, .state].map (·.code) = [0, 1, 2, 3, 4, 5, 6, 7, 8, 9, 10, 11, 12]
    ∧ [RefusalCode.notReady, .notJoined, .staleSession, .suspended, .draining, .badRequest, .tagInUse, .tableFull,
      .creditOverrun].map (·.code) = [1, 2, 3, 4, 5, 6, 7, 8, 9])
  ∧ ∀ s : State,
    let run := exec .transmitStart s
    let sent := fun (source : TxSource) (p : Parcel) => some (⟨source, p⟩ : Transmission)
    let byte := fun l : Lane => BitVec.ofNat 8 l.val
    let eligible := fun l => (s.lane l).session = .active ∧ (s.lane l).joinReplySent = true
      ∧ (s.lane l).creditWaiting.isSome
    (s.link.state ≠ .up ∨ s.link.tx.isSome → run = .next s)
    ∧ (s.link.state = .up → s.link.tx = none →
      (∀ m, s.mgmt.reply = some m → run = .next
        { s with
          link :=
            { s.link with
              tx := sent .mgmtReply
                ⟨0x87, byte m.lane, m.tag.setWidth 8, m.number, m.code.setWidth 16, m.status.code, 0, m.kindWord,
                  bytesOfWords m.payload⟩ } })
      ∧ (s.mgmt.reply = none →
        (∀ m n ns, s.mgmt.claim = .claimed → s.mgmt.manager = some m → s.faults.notices = n :: ns →
          let words : List Word := match n.body with
            | .fault record _ => record.layout
            | .role old new => [BitVec.ofNat 32 old.val, BitVec.ofNat 32 new.val]
          let subtype : Byte := match n.body with | .fault _ _ => 0 | .role _ _ => 1
          let logged : Byte := match n.body with | .fault _ true => 1 | .fault _ false => 0 | .role _ _ => 0
          ∃ x : Tag, run = .next
            { s with
              link :=
                { s.link with
                  tx := sent .notice
                    ⟨0x88, byte m, x.setWidth 8, (s.lane m).number, 0, subtype, 0,
                      word32 (if n.missed then 1 else 0) logged 0 0, bytesOfWords words⟩ }
              freeCount := s.freeCount + 1024 })
        ∧ (s.mgmt.claim ≠ .claimed → run = exec .transmitStart
            { s with faults := { s.faults with notices := [], missed := s.faults.missed || !s.faults.notices.isEmpty } })
        ∧ (s.faults.notices = [] →
          (∀ x xs, s.link.refusals = x :: xs → run = .next
            { s with
              link :=
                { s.link with
                  tx := sent .refusal
                    ⟨0x83, byte x.lane, x.tag.setWidth 8, x.number, 0, x.code.code, x.address, 0, []⟩ } })
          ∧ (s.link.refusals = [] →
            (∀ l n, eligible l → (s.lane l).creditWaiting = some n →
              (∀ k, eligible k → lanesPast s.link.lastCredit l ≤ lanesPast s.link.lastCredit k) →
              ∃ x : Tag, run = .next
                { s.setLane l { s.lane l with creditWaiting := none } with
                  link :=
                    { s.link with
                      tx := sent (.credit l)
                        ⟨0x84, byte l, x.setWidth 8, (s.lane l).number, 0, 0, 0, BitVec.ofNat 32 n, []⟩
                      lastCredit := l }
                  freeCount := s.freeCount + 1024 })
            ∧ ((∀ l, ¬eligible l) → (∀ l, (s.lane l).stream = []) → run = .next s)))))

/-- The start of a stream item (R32, R36, R37, R98, R178, R180, R181): below every other source, the oldest item of the first lane
after the last stream lane whose stream holds one. A session reply goes as it was handed; an answer's slot becomes SENDING,
with the request's data for a READ that is OK or CORRECTED, zeros for a SINK, and no payload otherwise. The status byte
carries the codes of R181. -/
def Obligations.TheOldestStreamItemStarts : Prop :=
  ([JoinStatus.ok, .refused, .sessionBusy, .notReady].map (·.code) = [0, 1, 2, 3]
    ∧ [LeaveStatus.ok, .notJoined, .draining, .staleSession, .notReady].map (·.code) = [0, 1, 2, 3, 4]
    ∧ [RespStatus.ok, .corrected, .memoryFault, .timeout, .noWindow, .windowSpan, .denied, .translationFault,
      .cancelled].map (·.code) = [0, 1, 2, 3, 4, 5, 6, 7, 8])
  ∧ ∀ (l : Lane) (item : StreamItem) (rest : List StreamItem) (s : State),
    let r := s.lane l
    let run := exec .transmitStart s
    let header := fun (kind : Byte) (tag : Tag) (number status : Byte) =>
      (⟨kind, BitVec.ofNat 8 l.val, tag.setWidth 8, number, 0, status, 0, 0, []⟩ : Parcel)
    let started := fun p => { s.link with tx := some ⟨.stream l, p⟩, lastStream := l }
    s.link.state = .up → s.link.tx = none → s.mgmt.reply = none → s.faults.notices = [] → s.link.refusals = [] →
    (∀ k, (s.lane k).session = .active → (s.lane k).joinReplySent = true → (s.lane k).creditWaiting = none) →
    r.stream = item :: rest →
    (∀ k, (s.lane k).stream ≠ [] → lanesPast s.link.lastStream l ≤ lanesPast s.link.lastStream k) →
    (∀ st tag number, item = .joinReply st tag number →
      run = .next { s with link := started (header 0x81 tag number st.code) })
    ∧ (∀ st tag number, item = .leaveReply st tag number →
      run = .next { s with link := started (header 0x82 tag number st.code) })
    ∧ (∀ tag number, item = .closing tag number →
      run = .next { s with link := started (header 0x82 tag number 0) })
    ∧ (∀ tag q status, item = .answer tag → r.slot? tag = some q → q.status = some status → r.tags.Nodup →
      ∃ (t : State) (data : List Byte), run = .next t
        ∧ t.link = started
            { header (if q.dir = .read then 0x85 else 0x86) tag q.number status.code with
              length := BitVec.ofNat 16 q.length, address := q.address, payload := data }
        ∧ (t.lane l).slot? tag = some { q with stage := .sending } ∧ (t.lane l).tags = r.tags
        ∧ (t.lane l).stream = r.stream
        ∧ (∀ k, k ≠ l → t.lane k = s.lane k) ∧ t.areas = s.areas ∧ t.staging = s.staging ∧ t.mgmt = s.mgmt
        ∧ t.faults = s.faults
        ∧ (q.dir = .write → data = [])
        ∧ (q.dir = .read → status ≠ .ok → status ≠ .corrected → data = [])
        ∧ (q.dir = .read → status = .ok ∨ status = .corrected → data.length = q.length
            ∧ ((∃ c, q.capture = some c ∧ c.kind = .sink) → ∀ b ∈ data, b = 0)
            ∧ ((∀ c, q.capture = some c → c.kind ≠ .sink) → ∀ k u b, k < q.length →
                q.held[k / 64]? = some u → Memory.read s.staging (u.unit * 64 + k % 64) = some b →
                data[k]? = some b)))

/-- The end of a transmission (R179): the item leaves its source, with its owner's end effect: the reply slot is empty and takes a
final reply that waits, while an operation that has not ended stays in progress (R161), a JOIN_REPLY OK makes the lane's CREDIT eligible (R9), the slot of a READ_DATA or a WRITE_ACK
is freed, its filled units are released and the next head is answered (R35, R37), and a drain whose list is empty closes
(R23), which ends a SESSION RESET that waits on the lane (R16, R161). While RESTARTING, EventsCarryRestartOn says what
follows. -/
def Obligations.TheEndedItemLeavesItsSource : Prop :=
  ∀ (p : Parcel) (l : Lane) (rest : List StreamItem) (s : State),
    let r := s.lane l
    let run := fun source => exec .transmissionEnd { s with link := { s.link with tx := some ⟨source, p⟩ } }
    let idle : State := { s with link := { s.link with tx := none } }
    let a := (s.agent l).area
    let area := s.area a
    (s.link.tx = none → exec .transmissionEnd s = .next s)
    ∧ (s.mgmt.op = none → run .mgmtReply = .next { idle with mgmt := { s.mgmt with reply := none } })
    ∧ (∀ o, s.mgmt.op = some o →
        (o.ended = false → run .mgmtReply = .next { idle with mgmt := { s.mgmt with reply := none } })
        ∧ (o.ended = true → s.mgmt.forfeit = true →
            run .mgmtReply = .next { idle with mgmt := { s.mgmt with op := none, reply := none } })
        ∧ (o.ended = true → s.mgmt.forfeit = false → run .mgmtReply = .next
            ({ idle with mgmt := { s.mgmt with op := none } }.replied o.lane o.tag o.kind.code .done 0 [])))
    ∧ run .notice = .next { idle with faults := { s.faults with notices := s.faults.notices.tail } }
    ∧ run .refusal = .next
        { s with link := { s.link with tx := none, refusals := s.link.refusals.tail } }
    ∧ run (.credit l) = .next idle
    ∧ (∀ st tag number, r.stream = .joinReply st tag number :: rest → run (.stream l) = .next
        (idle.setLane l { r with stream := rest, joinReplySent := r.joinReplySent || st == .ok }))
    ∧ (∀ st tag number, r.stream = .leaveReply st tag number :: rest ∨ r.stream = .closing tag number :: rest →
        run (.stream l) = .next (idle.setLane l { r with stream := rest }))
    ∧ (∀ q qs, r.stream = .answer q.tag :: rest → r.slots = q :: qs → r.tags.Nodup →
        (∀ u ∈ q.held, u.filled = true) → s.mgmt.stage = .none →
        ∃ t : State, run (.stream l) = .next t ∧ t.link = idle.link ∧ (t.lane l).slots = qs
          ∧ (t.lane l).issued = r.issued ∧ (t.lane l).number = r.number
          ∧ (q.dir = .read → t.area a = { area with readFilled := area.readFilled - q.held.length }
              ∧ (r.session ≠ .draining → (t.lane l).credit = r.credit ∧ (t.lane l).creditWaiting = r.creditWaiting))
          ∧ (q.dir = .write → t.area a = { area with writeOccupied := area.writeOccupied - q.held.length })
          ∧ (∀ b, b ≠ a → t.area b = s.area b) ∧ (qs = [] → r.session = .draining → s.resetSettled t l)
          ∧ (qs ≠ [] ∨ r.session ≠ .draining → t.mgmt = s.mgmt)
          ∧ (∀ h, qs.head? = some h → h.stage = .complete → (∀ x ∈ rest, ∀ tag, x ≠ .answer tag) →
              (t.lane l).stream = rest ++ [.answer h.tag])
          ∧ ((∀ h, qs.head? = some h → h.stage ≠ .complete) → r.session ≠ .draining → (t.lane l).stream = rest)
          ∧ (qs = [] → r.session = .draining → (t.lane l).session = .detached ∧ (t.lane l).credit = 0)
          ∧ (qs = [] → r.session = .draining → r.drain = .answered → ∀ tag, r.closingOwed = some tag →
              (t.lane l).stream = rest ++ [.closing tag r.number])
          ∧ (∀ k, k ≠ l → t.lane k = s.lane k) ∧ t.faults = s.faults ∧ t.port = s.port ∧ t.classes = s.classes)

/-! ### Laws that every step keeps -/

/-- ALERT_N is low exactly while the log holds a record whose cause's route is LINE (R146). -/
def Obligations.AlertFollowsTheLog : Prop :=
  ∀ s t : State, AlertFollowsLog s → step s = .next t → AlertFollowsLog t

/-- Exactly one manager lane while CLAIMED and otherwise none, and the confirm timer in CLAIM_PENDING alone (R154, R157, R158);
while the link is not UP nothing is sent, and an operation in progress is forfeit (R161, R162, R174); a DRAINING lane has a slot
in its list (R12, R18, R23). In states that keep that law and DrainLaw, which ListsDrainsAndClassesStaySound says every step
keeps, RESTART waits only for what R171 names, and SESSION RESET only for a lane that still drains (R16, R18, R20). -/
def Obligations.TheRoleAndTheDownLinkStaySound : Prop :=
  ∀ s t : State, step s = .next t →
    (RoleLaw s → RoleLaw t) ∧ (DownLaw s → DownLaw t) ∧ (DrainingLaw s → DrainingLaw t)
      ∧ (DrainLaw s → DrainingLaw s → RestartLaw s → ResetLaw s → RestartLaw t ∧ ResetLaw t)

/-- The log, the notice queue, the refusal queue, the cache and the request table stay within their capacities (R22, R23, R70,
R141, R145, R177); the staging storage keeps its canonical form. -/
def Obligations.CapacitiesAndStorageStaySound : Prop :=
  ∀ s t : State, step s = .next t →
    (WithinCapacity s → WithinCapacity t) ∧ (StagingCanonical s → StagingCanonical t)

/-- No two slots of a list hold one tag (R23); a drain kind in DRAINING alone, and a closing reply owed in ANSWERED alone (R2, R5,
R12, R17); an OPEN class has no holds left and no slot used (R108, R114); no entry index stands twice among the cache, the
walk slots and the waiting list (R73, R80). -/
def Obligations.ListsDrainsAndClassesStaySound : Prop :=
  ∀ s t : State, step s = .next t →
    (TagLaw s → TagLaw t) ∧ (DrainLaw s → DrainLaw t) ∧ (OpenLaw s → OpenLaw t) ∧ (IndexLaw s → IndexLaw t)

/-- The accounts stay exact (R30, R91, R94): at every step the issued count of a lane is the number of its ISSUED slots and at most
max outstanding, the counts of an area are the units its lane's slots hold, write occupied plus credit committed is within
the write share and read reserved plus read filled within the read share; with the laws of lists, streams, waiters, ids and
units that make them so (R10, R18, R23, R28, R35, R37, R73, R75, R121, R123). -/
def Obligations.TheAccountsStayExact : Prop :=
  ∀ s t : State, AccountLaw s → step s = .next t → AccountLaw t

/-- Once locked, the part stays locked until line reset, and until then no PORT, AREAS or ROUTES row and no protected ACTIVE
window row changes (R48, R169). -/
def Obligations.TheLockHoldsUntilLineReset : Prop :=
  ∀ s t : State, LockedWindows s → step s = .next t →
    LockedWindows t
      ∧ (s.mgmt.locked = true → (∀ straps rest, s.pending ≠ .lineReset straps :: rest) → LockKept s t)

/-- A lane's session number changes at its accepted JOIN, by one, and at line reset, to 0, and at no other step (R5, R6, R8). -/
def Obligations.SessionNumbersChangeAtJoinAlone : Prop :=
  ∀ (s t : State) (l : Lane), step s = .next t →
    (t.lane l).number = (s.lane l).number
      ∨ ((t.lane l).number = (s.lane l).number + 1 ∧ (t.lane l).session = .active
          ∧ ∃ lane tag identifier rest, s.pending = .join lane tag identifier :: rest ∧ laneOf lane = l)
      ∨ ((t.lane l).number = 0 ∧ ∃ straps rest, s.pending = .lineReset straps :: rest)

/-- The state after line reset satisfies every law that the steps keep (R5, R22, R30, R46, R70, R86, R108, R122, R141, R153, R154). -/
def Obligations.ResetSatisfiesTheLaws : Prop :=
  AlertFollowsLog State.reset ∧ RoleLaw State.reset ∧ DownLaw State.reset ∧ RestartLaw State.reset ∧ ResetLaw State.reset ∧ WithinCapacity State.reset
    ∧ StagingCanonical State.reset ∧ TagLaw State.reset ∧ DrainLaw State.reset ∧ DrainingLaw State.reset
    ∧ OpenLaw State.reset ∧ IndexLaw State.reset ∧ AccountLaw State.reset ∧ LockedWindows State.reset

end
end

