-- ==== Sys2Proof/Laws/State.lean ====
section
/-! SUPPORT. One lemma for each field of State under each update of Machine/Ops.lean, and for each table reader. -/

namespace Sys2Proof.Machine

/-! ### updLane -/

@[simp] theorem updLane_pending (s : State) (l : Lane) (f : LaneState → LaneState) : (s.updLane l f).pending = s.pending := rfl
@[simp] theorem updLane_timebase (s : State) (l : Lane) (f : LaneState → LaneState) : (s.updLane l f).timebase = s.timebase := rfl
@[simp] theorem updLane_link (s : State) (l : Lane) (f : LaneState → LaneState) : (s.updLane l f).link = s.link := rfl
@[simp] theorem updLane_mgmt (s : State) (l : Lane) (f : LaneState → LaneState) : (s.updLane l f).mgmt = s.mgmt := rfl
@[simp] theorem updLane_faults (s : State) (l : Lane) (f : LaneState → LaneState) : (s.updLane l f).faults = s.faults := rfl
@[simp] theorem updLane_agents (s : State) (l : Lane) (f : LaneState → LaneState) : (s.updLane l f).agents = s.agents := rfl
@[simp] theorem updLane_windows (s : State) (l : Lane) (f : LaneState → LaneState) : (s.updLane l f).windows = s.windows := rfl
@[simp] theorem updLane_portRow (s : State) (l : Lane) (f : LaneState → LaneState) : (s.updLane l f).portRow = s.portRow := rfl
@[simp] theorem updLane_xlat (s : State) (l : Lane) (f : LaneState → LaneState) : (s.updLane l f).xlat = s.xlat := rfl
@[simp] theorem updLane_areas (s : State) (l : Lane) (f : LaneState → LaneState) : (s.updLane l f).areas = s.areas := rfl
@[simp] theorem updLane_staging (s : State) (l : Lane) (f : LaneState → LaneState) : (s.updLane l f).staging = s.staging := rfl
@[simp] theorem updLane_classes (s : State) (l : Lane) (f : LaneState → LaneState) : (s.updLane l f).classes = s.classes := rfl
@[simp] theorem updLane_port (s : State) (l : Lane) (f : LaneState → LaneState) : (s.updLane l f).port = s.port := rfl
@[simp] theorem updLane_freeCount (s : State) (l : Lane) (f : LaneState → LaneState) : (s.updLane l f).freeCount = s.freeCount := rfl
@[simp] theorem updLane_agent (s : State) (l : Lane) (f : LaneState → LaneState) (k : Lane) : (s.updLane l f).agent k = s.agent k := rfl
@[simp] theorem updLane_area (s : State) (l : Lane) (f : LaneState → LaneState) (k : Fin 16) : (s.updLane l f).area k = s.area k := rfl
@[simp] theorem updLane_cls (s : State) (l : Lane) (f : LaneState → LaneState) (k : ClassNo) : (s.updLane l f).cls k = s.cls k := rfl
@[simp] theorem updLane_memId (s : State) (l : Lane) (f : LaneState → LaneState) (k : MemId) : (s.updLane l f).memId k = s.memId k := rfl
@[simp] theorem updLane_walk (s : State) (l : Lane) (f : LaneState → LaneState) (k : WalkNo) : (s.updLane l f).walk k = s.walk k := rfl

/-! ### setAgent -/

@[simp] theorem setAgent_pending (s : State) (l : Lane) (r : AgentRow) : (s.setAgent l r).pending = s.pending := rfl
@[simp] theorem setAgent_timebase (s : State) (l : Lane) (r : AgentRow) : (s.setAgent l r).timebase = s.timebase := rfl
@[simp] theorem setAgent_link (s : State) (l : Lane) (r : AgentRow) : (s.setAgent l r).link = s.link := rfl
@[simp] theorem setAgent_mgmt (s : State) (l : Lane) (r : AgentRow) : (s.setAgent l r).mgmt = s.mgmt := rfl
@[simp] theorem setAgent_faults (s : State) (l : Lane) (r : AgentRow) : (s.setAgent l r).faults = s.faults := rfl
@[simp] theorem setAgent_lanes (s : State) (l : Lane) (r : AgentRow) : (s.setAgent l r).lanes = s.lanes := rfl
@[simp] theorem setAgent_windows (s : State) (l : Lane) (r : AgentRow) : (s.setAgent l r).windows = s.windows := rfl
@[simp] theorem setAgent_portRow (s : State) (l : Lane) (r : AgentRow) : (s.setAgent l r).portRow = s.portRow := rfl
@[simp] theorem setAgent_xlat (s : State) (l : Lane) (r : AgentRow) : (s.setAgent l r).xlat = s.xlat := rfl
@[simp] theorem setAgent_areas (s : State) (l : Lane) (r : AgentRow) : (s.setAgent l r).areas = s.areas := rfl
@[simp] theorem setAgent_staging (s : State) (l : Lane) (r : AgentRow) : (s.setAgent l r).staging = s.staging := rfl
@[simp] theorem setAgent_classes (s : State) (l : Lane) (r : AgentRow) : (s.setAgent l r).classes = s.classes := rfl
@[simp] theorem setAgent_port (s : State) (l : Lane) (r : AgentRow) : (s.setAgent l r).port = s.port := rfl
@[simp] theorem setAgent_freeCount (s : State) (l : Lane) (r : AgentRow) : (s.setAgent l r).freeCount = s.freeCount := rfl
@[simp] theorem setAgent_lane (s : State) (l : Lane) (r : AgentRow) (k : Lane) : (s.setAgent l r).lane k = s.lane k := rfl
@[simp] theorem setAgent_area (s : State) (l : Lane) (r : AgentRow) (k : Fin 16) : (s.setAgent l r).area k = s.area k := rfl
@[simp] theorem setAgent_cls (s : State) (l : Lane) (r : AgentRow) (k : ClassNo) : (s.setAgent l r).cls k = s.cls k := rfl
@[simp] theorem setAgent_memId (s : State) (l : Lane) (r : AgentRow) (k : MemId) : (s.setAgent l r).memId k = s.memId k := rfl
@[simp] theorem setAgent_walk (s : State) (l : Lane) (r : AgentRow) (k : WalkNo) : (s.setAgent l r).walk k = s.walk k := rfl

/-! ### updArea -/

@[simp] theorem updArea_pending (s : State) (a : Fin 16) (f : Area → Area) : (s.updArea a f).pending = s.pending := rfl
@[simp] theorem updArea_timebase (s : State) (a : Fin 16) (f : Area → Area) : (s.updArea a f).timebase = s.timebase := rfl
@[simp] theorem updArea_link (s : State) (a : Fin 16) (f : Area → Area) : (s.updArea a f).link = s.link := rfl
@[simp] theorem updArea_mgmt (s : State) (a : Fin 16) (f : Area → Area) : (s.updArea a f).mgmt = s.mgmt := rfl
@[simp] theorem updArea_faults (s : State) (a : Fin 16) (f : Area → Area) : (s.updArea a f).faults = s.faults := rfl
@[simp] theorem updArea_lanes (s : State) (a : Fin 16) (f : Area → Area) : (s.updArea a f).lanes = s.lanes := rfl
@[simp] theorem updArea_agents (s : State) (a : Fin 16) (f : Area → Area) : (s.updArea a f).agents = s.agents := rfl
@[simp] theorem updArea_windows (s : State) (a : Fin 16) (f : Area → Area) : (s.updArea a f).windows = s.windows := rfl
@[simp] theorem updArea_portRow (s : State) (a : Fin 16) (f : Area → Area) : (s.updArea a f).portRow = s.portRow := rfl
@[simp] theorem updArea_xlat (s : State) (a : Fin 16) (f : Area → Area) : (s.updArea a f).xlat = s.xlat := rfl
@[simp] theorem updArea_staging (s : State) (a : Fin 16) (f : Area → Area) : (s.updArea a f).staging = s.staging := rfl
@[simp] theorem updArea_classes (s : State) (a : Fin 16) (f : Area → Area) : (s.updArea a f).classes = s.classes := rfl
@[simp] theorem updArea_port (s : State) (a : Fin 16) (f : Area → Area) : (s.updArea a f).port = s.port := rfl
@[simp] theorem updArea_freeCount (s : State) (a : Fin 16) (f : Area → Area) : (s.updArea a f).freeCount = s.freeCount := rfl
@[simp] theorem updArea_lane (s : State) (a : Fin 16) (f : Area → Area) (k : Lane) : (s.updArea a f).lane k = s.lane k := rfl
@[simp] theorem updArea_agent (s : State) (a : Fin 16) (f : Area → Area) (k : Lane) : (s.updArea a f).agent k = s.agent k := rfl
@[simp] theorem updArea_cls (s : State) (a : Fin 16) (f : Area → Area) (k : ClassNo) : (s.updArea a f).cls k = s.cls k := rfl
@[simp] theorem updArea_memId (s : State) (a : Fin 16) (f : Area → Area) (k : MemId) : (s.updArea a f).memId k = s.memId k := rfl
@[simp] theorem updArea_walk (s : State) (a : Fin 16) (f : Area → Area) (k : WalkNo) : (s.updArea a f).walk k = s.walk k := rfl

/-! ### updClass -/

@[simp] theorem updClass_pending (s : State) (c : ClassNo) (f : BudgetClass → BudgetClass) : (s.updClass c f).pending = s.pending := rfl
@[simp] theorem updClass_timebase (s : State) (c : ClassNo) (f : BudgetClass → BudgetClass) : (s.updClass c f).timebase = s.timebase := rfl
@[simp] theorem updClass_link (s : State) (c : ClassNo) (f : BudgetClass → BudgetClass) : (s.updClass c f).link = s.link := rfl
@[simp] theorem updClass_mgmt (s : State) (c : ClassNo) (f : BudgetClass → BudgetClass) : (s.updClass c f).mgmt = s.mgmt := rfl
@[simp] theorem updClass_faults (s : State) (c : ClassNo) (f : BudgetClass → BudgetClass) : (s.updClass c f).faults = s.faults := rfl
@[simp] theorem updClass_lanes (s : State) (c : ClassNo) (f : BudgetClass → BudgetClass) : (s.updClass c f).lanes = s.lanes := rfl
@[simp] theorem updClass_agents (s : State) (c : ClassNo) (f : BudgetClass → BudgetClass) : (s.updClass c f).agents = s.agents := rfl
@[simp] theorem updClass_windows (s : State) (c : ClassNo) (f : BudgetClass → BudgetClass) : (s.updClass c f).windows = s.windows := rfl
@[simp] theorem updClass_portRow (s : State) (c : ClassNo) (f : BudgetClass → BudgetClass) : (s.updClass c f).portRow = s.portRow := rfl
@[simp] theorem updClass_xlat (s : State) (c : ClassNo) (f : BudgetClass → BudgetClass) : (s.updClass c f).xlat = s.xlat := rfl
@[simp] theorem updClass_areas (s : State) (c : ClassNo) (f : BudgetClass → BudgetClass) : (s.updClass c f).areas = s.areas := rfl
@[simp] theorem updClass_staging (s : State) (c : ClassNo) (f : BudgetClass → BudgetClass) : (s.updClass c f).staging = s.staging := rfl
@[simp] theorem updClass_port (s : State) (c : ClassNo) (f : BudgetClass → BudgetClass) : (s.updClass c f).port = s.port := rfl
@[simp] theorem updClass_freeCount (s : State) (c : ClassNo) (f : BudgetClass → BudgetClass) : (s.updClass c f).freeCount = s.freeCount := rfl
@[simp] theorem updClass_lane (s : State) (c : ClassNo) (f : BudgetClass → BudgetClass) (k : Lane) : (s.updClass c f).lane k = s.lane k := rfl
@[simp] theorem updClass_agent (s : State) (c : ClassNo) (f : BudgetClass → BudgetClass) (k : Lane) : (s.updClass c f).agent k = s.agent k := rfl
@[simp] theorem updClass_area (s : State) (c : ClassNo) (f : BudgetClass → BudgetClass) (k : Fin 16) : (s.updClass c f).area k = s.area k := rfl
@[simp] theorem updClass_memId (s : State) (c : ClassNo) (f : BudgetClass → BudgetClass) (k : MemId) : (s.updClass c f).memId k = s.memId k := rfl
@[simp] theorem updClass_walk (s : State) (c : ClassNo) (f : BudgetClass → BudgetClass) (k : WalkNo) : (s.updClass c f).walk k = s.walk k := rfl

/-! ### withLink -/

@[simp] theorem withLink_pending (s : State) (f : LinkPort → LinkPort) : (s.withLink f).pending = s.pending := rfl
@[simp] theorem withLink_timebase (s : State) (f : LinkPort → LinkPort) : (s.withLink f).timebase = s.timebase := rfl
@[simp] theorem withLink_link (s : State) (f : LinkPort → LinkPort) : (s.withLink f).link = f s.link := rfl
@[simp] theorem withLink_mgmt (s : State) (f : LinkPort → LinkPort) : (s.withLink f).mgmt = s.mgmt := rfl
@[simp] theorem withLink_faults (s : State) (f : LinkPort → LinkPort) : (s.withLink f).faults = s.faults := rfl
@[simp] theorem withLink_lanes (s : State) (f : LinkPort → LinkPort) : (s.withLink f).lanes = s.lanes := rfl
@[simp] theorem withLink_agents (s : State) (f : LinkPort → LinkPort) : (s.withLink f).agents = s.agents := rfl
@[simp] theorem withLink_windows (s : State) (f : LinkPort → LinkPort) : (s.withLink f).windows = s.windows := rfl
@[simp] theorem withLink_portRow (s : State) (f : LinkPort → LinkPort) : (s.withLink f).portRow = s.portRow := rfl
@[simp] theorem withLink_xlat (s : State) (f : LinkPort → LinkPort) : (s.withLink f).xlat = s.xlat := rfl
@[simp] theorem withLink_areas (s : State) (f : LinkPort → LinkPort) : (s.withLink f).areas = s.areas := rfl
@[simp] theorem withLink_staging (s : State) (f : LinkPort → LinkPort) : (s.withLink f).staging = s.staging := rfl
@[simp] theorem withLink_classes (s : State) (f : LinkPort → LinkPort) : (s.withLink f).classes = s.classes := rfl
@[simp] theorem withLink_port (s : State) (f : LinkPort → LinkPort) : (s.withLink f).port = s.port := rfl
@[simp] theorem withLink_freeCount (s : State) (f : LinkPort → LinkPort) : (s.withLink f).freeCount = s.freeCount := rfl
@[simp] theorem withLink_lane (s : State) (f : LinkPort → LinkPort) (k : Lane) : (s.withLink f).lane k = s.lane k := rfl
@[simp] theorem withLink_agent (s : State) (f : LinkPort → LinkPort) (k : Lane) : (s.withLink f).agent k = s.agent k := rfl
@[simp] theorem withLink_area (s : State) (f : LinkPort → LinkPort) (k : Fin 16) : (s.withLink f).area k = s.area k := rfl
@[simp] theorem withLink_cls (s : State) (f : LinkPort → LinkPort) (k : ClassNo) : (s.withLink f).cls k = s.cls k := rfl
@[simp] theorem withLink_memId (s : State) (f : LinkPort → LinkPort) (k : MemId) : (s.withLink f).memId k = s.memId k := rfl
@[simp] theorem withLink_walk (s : State) (f : LinkPort → LinkPort) (k : WalkNo) : (s.withLink f).walk k = s.walk k := rfl

/-! ### withMgmt -/

@[simp] theorem withMgmt_pending (s : State) (f : Mgmt → Mgmt) : (s.withMgmt f).pending = s.pending := rfl
@[simp] theorem withMgmt_timebase (s : State) (f : Mgmt → Mgmt) : (s.withMgmt f).timebase = s.timebase := rfl
@[simp] theorem withMgmt_link (s : State) (f : Mgmt → Mgmt) : (s.withMgmt f).link = s.link := rfl
@[simp] theorem withMgmt_mgmt (s : State) (f : Mgmt → Mgmt) : (s.withMgmt f).mgmt = f s.mgmt := rfl
@[simp] theorem withMgmt_faults (s : State) (f : Mgmt → Mgmt) : (s.withMgmt f).faults = s.faults := rfl
@[simp] theorem withMgmt_lanes (s : State) (f : Mgmt → Mgmt) : (s.withMgmt f).lanes = s.lanes := rfl
@[simp] theorem withMgmt_agents (s : State) (f : Mgmt → Mgmt) : (s.withMgmt f).agents = s.agents := rfl
@[simp] theorem withMgmt_windows (s : State) (f : Mgmt → Mgmt) : (s.withMgmt f).windows = s.windows := rfl
@[simp] theorem withMgmt_portRow (s : State) (f : Mgmt → Mgmt) : (s.withMgmt f).portRow = s.portRow := rfl
@[simp] theorem withMgmt_xlat (s : State) (f : Mgmt → Mgmt) : (s.withMgmt f).xlat = s.xlat := rfl
@[simp] theorem withMgmt_areas (s : State) (f : Mgmt → Mgmt) : (s.withMgmt f).areas = s.areas := rfl
@[simp] theorem withMgmt_staging (s : State) (f : Mgmt → Mgmt) : (s.withMgmt f).staging = s.staging := rfl
@[simp] theorem withMgmt_classes (s : State) (f : Mgmt → Mgmt) : (s.withMgmt f).classes = s.classes := rfl
@[simp] theorem withMgmt_port (s : State) (f : Mgmt → Mgmt) : (s.withMgmt f).port = s.port := rfl
@[simp] theorem withMgmt_freeCount (s : State) (f : Mgmt → Mgmt) : (s.withMgmt f).freeCount = s.freeCount := rfl
@[simp] theorem withMgmt_lane (s : State) (f : Mgmt → Mgmt) (k : Lane) : (s.withMgmt f).lane k = s.lane k := rfl
@[simp] theorem withMgmt_agent (s : State) (f : Mgmt → Mgmt) (k : Lane) : (s.withMgmt f).agent k = s.agent k := rfl
@[simp] theorem withMgmt_area (s : State) (f : Mgmt → Mgmt) (k : Fin 16) : (s.withMgmt f).area k = s.area k := rfl
@[simp] theorem withMgmt_cls (s : State) (f : Mgmt → Mgmt) (k : ClassNo) : (s.withMgmt f).cls k = s.cls k := rfl
@[simp] theorem withMgmt_memId (s : State) (f : Mgmt → Mgmt) (k : MemId) : (s.withMgmt f).memId k = s.memId k := rfl
@[simp] theorem withMgmt_walk (s : State) (f : Mgmt → Mgmt) (k : WalkNo) : (s.withMgmt f).walk k = s.walk k := rfl

/-! ### withFaults -/

@[simp] theorem withFaults_pending (s : State) (f : FaultUnit → FaultUnit) : (s.withFaults f).pending = s.pending := rfl
@[simp] theorem withFaults_timebase (s : State) (f : FaultUnit → FaultUnit) : (s.withFaults f).timebase = s.timebase := rfl
@[simp] theorem withFaults_link (s : State) (f : FaultUnit → FaultUnit) : (s.withFaults f).link = s.link := rfl
@[simp] theorem withFaults_mgmt (s : State) (f : FaultUnit → FaultUnit) : (s.withFaults f).mgmt = s.mgmt := rfl
@[simp] theorem withFaults_faults (s : State) (f : FaultUnit → FaultUnit) : (s.withFaults f).faults = f s.faults := rfl
@[simp] theorem withFaults_lanes (s : State) (f : FaultUnit → FaultUnit) : (s.withFaults f).lanes = s.lanes := rfl
@[simp] theorem withFaults_agents (s : State) (f : FaultUnit → FaultUnit) : (s.withFaults f).agents = s.agents := rfl
@[simp] theorem withFaults_windows (s : State) (f : FaultUnit → FaultUnit) : (s.withFaults f).windows = s.windows := rfl
@[simp] theorem withFaults_portRow (s : State) (f : FaultUnit → FaultUnit) : (s.withFaults f).portRow = s.portRow := rfl
@[simp] theorem withFaults_xlat (s : State) (f : FaultUnit → FaultUnit) : (s.withFaults f).xlat = s.xlat := rfl
@[simp] theorem withFaults_areas (s : State) (f : FaultUnit → FaultUnit) : (s.withFaults f).areas = s.areas := rfl
@[simp] theorem withFaults_staging (s : State) (f : FaultUnit → FaultUnit) : (s.withFaults f).staging = s.staging := rfl
@[simp] theorem withFaults_classes (s : State) (f : FaultUnit → FaultUnit) : (s.withFaults f).classes = s.classes := rfl
@[simp] theorem withFaults_port (s : State) (f : FaultUnit → FaultUnit) : (s.withFaults f).port = s.port := rfl
@[simp] theorem withFaults_freeCount (s : State) (f : FaultUnit → FaultUnit) : (s.withFaults f).freeCount = s.freeCount := rfl
@[simp] theorem withFaults_lane (s : State) (f : FaultUnit → FaultUnit) (k : Lane) : (s.withFaults f).lane k = s.lane k := rfl
@[simp] theorem withFaults_agent (s : State) (f : FaultUnit → FaultUnit) (k : Lane) : (s.withFaults f).agent k = s.agent k := rfl
@[simp] theorem withFaults_area (s : State) (f : FaultUnit → FaultUnit) (k : Fin 16) : (s.withFaults f).area k = s.area k := rfl
@[simp] theorem withFaults_cls (s : State) (f : FaultUnit → FaultUnit) (k : ClassNo) : (s.withFaults f).cls k = s.cls k := rfl
@[simp] theorem withFaults_memId (s : State) (f : FaultUnit → FaultUnit) (k : MemId) : (s.withFaults f).memId k = s.memId k := rfl
@[simp] theorem withFaults_walk (s : State) (f : FaultUnit → FaultUnit) (k : WalkNo) : (s.withFaults f).walk k = s.walk k := rfl

/-! ### withWindows -/

@[simp] theorem withWindows_pending (s : State) (f : WindowUnit → WindowUnit) : (s.withWindows f).pending = s.pending := rfl
@[simp] theorem withWindows_timebase (s : State) (f : WindowUnit → WindowUnit) : (s.withWindows f).timebase = s.timebase := rfl
@[simp] theorem withWindows_link (s : State) (f : WindowUnit → WindowUnit) : (s.withWindows f).link = s.link := rfl
@[simp] theorem withWindows_mgmt (s : State) (f : WindowUnit → WindowUnit) : (s.withWindows f).mgmt = s.mgmt := rfl
@[simp] theorem withWindows_faults (s : State) (f : WindowUnit → WindowUnit) : (s.withWindows f).faults = s.faults := rfl
@[simp] theorem withWindows_lanes (s : State) (f : WindowUnit → WindowUnit) : (s.withWindows f).lanes = s.lanes := rfl
@[simp] theorem withWindows_agents (s : State) (f : WindowUnit → WindowUnit) : (s.withWindows f).agents = s.agents := rfl
@[simp] theorem withWindows_windows (s : State) (f : WindowUnit → WindowUnit) : (s.withWindows f).windows = f s.windows := rfl
@[simp] theorem withWindows_portRow (s : State) (f : WindowUnit → WindowUnit) : (s.withWindows f).portRow = s.portRow := rfl
@[simp] theorem withWindows_xlat (s : State) (f : WindowUnit → WindowUnit) : (s.withWindows f).xlat = s.xlat := rfl
@[simp] theorem withWindows_areas (s : State) (f : WindowUnit → WindowUnit) : (s.withWindows f).areas = s.areas := rfl
@[simp] theorem withWindows_staging (s : State) (f : WindowUnit → WindowUnit) : (s.withWindows f).staging = s.staging := rfl
@[simp] theorem withWindows_classes (s : State) (f : WindowUnit → WindowUnit) : (s.withWindows f).classes = s.classes := rfl
@[simp] theorem withWindows_port (s : State) (f : WindowUnit → WindowUnit) : (s.withWindows f).port = s.port := rfl
@[simp] theorem withWindows_freeCount (s : State) (f : WindowUnit → WindowUnit) : (s.withWindows f).freeCount = s.freeCount := rfl
@[simp] theorem withWindows_lane (s : State) (f : WindowUnit → WindowUnit) (k : Lane) : (s.withWindows f).lane k = s.lane k := rfl
@[simp] theorem withWindows_agent (s : State) (f : WindowUnit → WindowUnit) (k : Lane) : (s.withWindows f).agent k = s.agent k := rfl
@[simp] theorem withWindows_area (s : State) (f : WindowUnit → WindowUnit) (k : Fin 16) : (s.withWindows f).area k = s.area k := rfl
@[simp] theorem withWindows_cls (s : State) (f : WindowUnit → WindowUnit) (k : ClassNo) : (s.withWindows f).cls k = s.cls k := rfl
@[simp] theorem withWindows_memId (s : State) (f : WindowUnit → WindowUnit) (k : MemId) : (s.withWindows f).memId k = s.memId k := rfl
@[simp] theorem withWindows_walk (s : State) (f : WindowUnit → WindowUnit) (k : WalkNo) : (s.withWindows f).walk k = s.walk k := rfl

/-! ### withXlat -/

@[simp] theorem withXlat_pending (s : State) (f : Translation → Translation) : (s.withXlat f).pending = s.pending := rfl
@[simp] theorem withXlat_timebase (s : State) (f : Translation → Translation) : (s.withXlat f).timebase = s.timebase := rfl
@[simp] theorem withXlat_link (s : State) (f : Translation → Translation) : (s.withXlat f).link = s.link := rfl
@[simp] theorem withXlat_mgmt (s : State) (f : Translation → Translation) : (s.withXlat f).mgmt = s.mgmt := rfl
@[simp] theorem withXlat_faults (s : State) (f : Translation → Translation) : (s.withXlat f).faults = s.faults := rfl
@[simp] theorem withXlat_lanes (s : State) (f : Translation → Translation) : (s.withXlat f).lanes = s.lanes := rfl
@[simp] theorem withXlat_agents (s : State) (f : Translation → Translation) : (s.withXlat f).agents = s.agents := rfl
@[simp] theorem withXlat_windows (s : State) (f : Translation → Translation) : (s.withXlat f).windows = s.windows := rfl
@[simp] theorem withXlat_portRow (s : State) (f : Translation → Translation) : (s.withXlat f).portRow = s.portRow := rfl
@[simp] theorem withXlat_xlat (s : State) (f : Translation → Translation) : (s.withXlat f).xlat = f s.xlat := rfl
@[simp] theorem withXlat_areas (s : State) (f : Translation → Translation) : (s.withXlat f).areas = s.areas := rfl
@[simp] theorem withXlat_staging (s : State) (f : Translation → Translation) : (s.withXlat f).staging = s.staging := rfl
@[simp] theorem withXlat_classes (s : State) (f : Translation → Translation) : (s.withXlat f).classes = s.classes := rfl
@[simp] theorem withXlat_port (s : State) (f : Translation → Translation) : (s.withXlat f).port = s.port := rfl
@[simp] theorem withXlat_freeCount (s : State) (f : Translation → Translation) : (s.withXlat f).freeCount = s.freeCount := rfl
@[simp] theorem withXlat_lane (s : State) (f : Translation → Translation) (k : Lane) : (s.withXlat f).lane k = s.lane k := rfl
@[simp] theorem withXlat_agent (s : State) (f : Translation → Translation) (k : Lane) : (s.withXlat f).agent k = s.agent k := rfl
@[simp] theorem withXlat_area (s : State) (f : Translation → Translation) (k : Fin 16) : (s.withXlat f).area k = s.area k := rfl
@[simp] theorem withXlat_cls (s : State) (f : Translation → Translation) (k : ClassNo) : (s.withXlat f).cls k = s.cls k := rfl
@[simp] theorem withXlat_memId (s : State) (f : Translation → Translation) (k : MemId) : (s.withXlat f).memId k = s.memId k := rfl

/-! ### withPort -/

@[simp] theorem withPort_pending (s : State) (f : MemoryPort → MemoryPort) : (s.withPort f).pending = s.pending := rfl
@[simp] theorem withPort_timebase (s : State) (f : MemoryPort → MemoryPort) : (s.withPort f).timebase = s.timebase := rfl
@[simp] theorem withPort_link (s : State) (f : MemoryPort → MemoryPort) : (s.withPort f).link = s.link := rfl
@[simp] theorem withPort_mgmt (s : State) (f : MemoryPort → MemoryPort) : (s.withPort f).mgmt = s.mgmt := rfl
@[simp] theorem withPort_faults (s : State) (f : MemoryPort → MemoryPort) : (s.withPort f).faults = s.faults := rfl
@[simp] theorem withPort_lanes (s : State) (f : MemoryPort → MemoryPort) : (s.withPort f).lanes = s.lanes := rfl
@[simp] theorem withPort_agents (s : State) (f : MemoryPort → MemoryPort) : (s.withPort f).agents = s.agents := rfl
@[simp] theorem withPort_windows (s : State) (f : MemoryPort → MemoryPort) : (s.withPort f).windows = s.windows := rfl
@[simp] theorem withPort_portRow (s : State) (f : MemoryPort → MemoryPort) : (s.withPort f).portRow = s.portRow := rfl
@[simp] theorem withPort_xlat (s : State) (f : MemoryPort → MemoryPort) : (s.withPort f).xlat = s.xlat := rfl
@[simp] theorem withPort_areas (s : State) (f : MemoryPort → MemoryPort) : (s.withPort f).areas = s.areas := rfl
@[simp] theorem withPort_staging (s : State) (f : MemoryPort → MemoryPort) : (s.withPort f).staging = s.staging := rfl
@[simp] theorem withPort_classes (s : State) (f : MemoryPort → MemoryPort) : (s.withPort f).classes = s.classes := rfl
@[simp] theorem withPort_port (s : State) (f : MemoryPort → MemoryPort) : (s.withPort f).port = f s.port := rfl
@[simp] theorem withPort_freeCount (s : State) (f : MemoryPort → MemoryPort) : (s.withPort f).freeCount = s.freeCount := rfl
@[simp] theorem withPort_lane (s : State) (f : MemoryPort → MemoryPort) (k : Lane) : (s.withPort f).lane k = s.lane k := rfl
@[simp] theorem withPort_agent (s : State) (f : MemoryPort → MemoryPort) (k : Lane) : (s.withPort f).agent k = s.agent k := rfl
@[simp] theorem withPort_area (s : State) (f : MemoryPort → MemoryPort) (k : Fin 16) : (s.withPort f).area k = s.area k := rfl
@[simp] theorem withPort_cls (s : State) (f : MemoryPort → MemoryPort) (k : ClassNo) : (s.withPort f).cls k = s.cls k := rfl
@[simp] theorem withPort_walk (s : State) (f : MemoryPort → MemoryPort) (k : WalkNo) : (s.withPort f).walk k = s.walk k := rfl

/-! ### withStaging -/

@[simp] theorem withStaging_pending (s : State) (f : Memory → Memory) : (s.withStaging f).pending = s.pending := rfl
@[simp] theorem withStaging_timebase (s : State) (f : Memory → Memory) : (s.withStaging f).timebase = s.timebase := rfl
@[simp] theorem withStaging_link (s : State) (f : Memory → Memory) : (s.withStaging f).link = s.link := rfl
@[simp] theorem withStaging_mgmt (s : State) (f : Memory → Memory) : (s.withStaging f).mgmt = s.mgmt := rfl
@[simp] theorem withStaging_faults (s : State) (f : Memory → Memory) : (s.withStaging f).faults = s.faults := rfl
@[simp] theorem withStaging_lanes (s : State) (f : Memory → Memory) : (s.withStaging f).lanes = s.lanes := rfl
@[simp] theorem withStaging_agents (s : State) (f : Memory → Memory) : (s.withStaging f).agents = s.agents := rfl
@[simp] theorem withStaging_windows (s : State) (f : Memory → Memory) : (s.withStaging f).windows = s.windows := rfl
@[simp] theorem withStaging_portRow (s : State) (f : Memory → Memory) : (s.withStaging f).portRow = s.portRow := rfl
@[simp] theorem withStaging_xlat (s : State) (f : Memory → Memory) : (s.withStaging f).xlat = s.xlat := rfl
@[simp] theorem withStaging_areas (s : State) (f : Memory → Memory) : (s.withStaging f).areas = s.areas := rfl
@[simp] theorem withStaging_staging (s : State) (f : Memory → Memory) : (s.withStaging f).staging = f s.staging := rfl
@[simp] theorem withStaging_classes (s : State) (f : Memory → Memory) : (s.withStaging f).classes = s.classes := rfl
@[simp] theorem withStaging_port (s : State) (f : Memory → Memory) : (s.withStaging f).port = s.port := rfl
@[simp] theorem withStaging_freeCount (s : State) (f : Memory → Memory) : (s.withStaging f).freeCount = s.freeCount := rfl
@[simp] theorem withStaging_lane (s : State) (f : Memory → Memory) (k : Lane) : (s.withStaging f).lane k = s.lane k := rfl
@[simp] theorem withStaging_agent (s : State) (f : Memory → Memory) (k : Lane) : (s.withStaging f).agent k = s.agent k := rfl
@[simp] theorem withStaging_area (s : State) (f : Memory → Memory) (k : Fin 16) : (s.withStaging f).area k = s.area k := rfl
@[simp] theorem withStaging_cls (s : State) (f : Memory → Memory) (k : ClassNo) : (s.withStaging f).cls k = s.cls k := rfl
@[simp] theorem withStaging_memId (s : State) (f : Memory → Memory) (k : MemId) : (s.withStaging f).memId k = s.memId k := rfl
@[simp] theorem withStaging_walk (s : State) (f : Memory → Memory) (k : WalkNo) : (s.withStaging f).walk k = s.walk k := rfl

/-! ### setId -/

@[simp] theorem setId_pending (s : State) (i : MemId) (x : IdState) : (s.setId i x).pending = s.pending := rfl
@[simp] theorem setId_timebase (s : State) (i : MemId) (x : IdState) : (s.setId i x).timebase = s.timebase := rfl
@[simp] theorem setId_link (s : State) (i : MemId) (x : IdState) : (s.setId i x).link = s.link := rfl
@[simp] theorem setId_mgmt (s : State) (i : MemId) (x : IdState) : (s.setId i x).mgmt = s.mgmt := rfl
@[simp] theorem setId_faults (s : State) (i : MemId) (x : IdState) : (s.setId i x).faults = s.faults := rfl
@[simp] theorem setId_lanes (s : State) (i : MemId) (x : IdState) : (s.setId i x).lanes = s.lanes := rfl
@[simp] theorem setId_agents (s : State) (i : MemId) (x : IdState) : (s.setId i x).agents = s.agents := rfl
@[simp] theorem setId_windows (s : State) (i : MemId) (x : IdState) : (s.setId i x).windows = s.windows := rfl
@[simp] theorem setId_portRow (s : State) (i : MemId) (x : IdState) : (s.setId i x).portRow = s.portRow := rfl
@[simp] theorem setId_xlat (s : State) (i : MemId) (x : IdState) : (s.setId i x).xlat = s.xlat := rfl
@[simp] theorem setId_areas (s : State) (i : MemId) (x : IdState) : (s.setId i x).areas = s.areas := rfl
@[simp] theorem setId_staging (s : State) (i : MemId) (x : IdState) : (s.setId i x).staging = s.staging := rfl
@[simp] theorem setId_classes (s : State) (i : MemId) (x : IdState) : (s.setId i x).classes = s.classes := rfl
@[simp] theorem setId_freeCount (s : State) (i : MemId) (x : IdState) : (s.setId i x).freeCount = s.freeCount := rfl
@[simp] theorem setId_lane (s : State) (i : MemId) (x : IdState) (k : Lane) : (s.setId i x).lane k = s.lane k := rfl
@[simp] theorem setId_agent (s : State) (i : MemId) (x : IdState) (k : Lane) : (s.setId i x).agent k = s.agent k := rfl
@[simp] theorem setId_area (s : State) (i : MemId) (x : IdState) (k : Fin 16) : (s.setId i x).area k = s.area k := rfl
@[simp] theorem setId_cls (s : State) (i : MemId) (x : IdState) (k : ClassNo) : (s.setId i x).cls k = s.cls k := rfl
@[simp] theorem setId_walk (s : State) (i : MemId) (x : IdState) (k : WalkNo) : (s.setId i x).walk k = s.walk k := rfl

/-! ### setWalk -/

@[simp] theorem setWalk_pending (s : State) (w : WalkNo) (x : Option Walk) : (s.setWalk w x).pending = s.pending := rfl
@[simp] theorem setWalk_timebase (s : State) (w : WalkNo) (x : Option Walk) : (s.setWalk w x).timebase = s.timebase := rfl
@[simp] theorem setWalk_link (s : State) (w : WalkNo) (x : Option Walk) : (s.setWalk w x).link = s.link := rfl
@[simp] theorem setWalk_mgmt (s : State) (w : WalkNo) (x : Option Walk) : (s.setWalk w x).mgmt = s.mgmt := rfl
@[simp] theorem setWalk_faults (s : State) (w : WalkNo) (x : Option Walk) : (s.setWalk w x).faults = s.faults := rfl
@[simp] theorem setWalk_lanes (s : State) (w : WalkNo) (x : Option Walk) : (s.setWalk w x).lanes = s.lanes := rfl
@[simp] theorem setWalk_agents (s : State) (w : WalkNo) (x : Option Walk) : (s.setWalk w x).agents = s.agents := rfl
@[simp] theorem setWalk_windows (s : State) (w : WalkNo) (x : Option Walk) : (s.setWalk w x).windows = s.windows := rfl
@[simp] theorem setWalk_portRow (s : State) (w : WalkNo) (x : Option Walk) : (s.setWalk w x).portRow = s.portRow := rfl
@[simp] theorem setWalk_areas (s : State) (w : WalkNo) (x : Option Walk) : (s.setWalk w x).areas = s.areas := rfl
@[simp] theorem setWalk_staging (s : State) (w : WalkNo) (x : Option Walk) : (s.setWalk w x).staging = s.staging := rfl
@[simp] theorem setWalk_classes (s : State) (w : WalkNo) (x : Option Walk) : (s.setWalk w x).classes = s.classes := rfl
@[simp] theorem setWalk_port (s : State) (w : WalkNo) (x : Option Walk) : (s.setWalk w x).port = s.port := rfl
@[simp] theorem setWalk_freeCount (s : State) (w : WalkNo) (x : Option Walk) : (s.setWalk w x).freeCount = s.freeCount := rfl
@[simp] theorem setWalk_lane (s : State) (w : WalkNo) (x : Option Walk) (k : Lane) : (s.setWalk w x).lane k = s.lane k := rfl
@[simp] theorem setWalk_agent (s : State) (w : WalkNo) (x : Option Walk) (k : Lane) : (s.setWalk w x).agent k = s.agent k := rfl
@[simp] theorem setWalk_area (s : State) (w : WalkNo) (x : Option Walk) (k : Fin 16) : (s.setWalk w x).area k = s.area k := rfl
@[simp] theorem setWalk_cls (s : State) (w : WalkNo) (x : Option Walk) (k : ClassNo) : (s.setWalk w x).cls k = s.cls k := rfl
@[simp] theorem setWalk_memId (s : State) (w : WalkNo) (x : Option Walk) (k : MemId) : (s.setWalk w x).memId k = s.memId k := rfl

/-! ### useFree -/

@[simp] theorem useFree_pending (s : State) (n : Nat) : (s.useFree n).pending = s.pending := rfl
@[simp] theorem useFree_timebase (s : State) (n : Nat) : (s.useFree n).timebase = s.timebase := rfl
@[simp] theorem useFree_link (s : State) (n : Nat) : (s.useFree n).link = s.link := rfl
@[simp] theorem useFree_mgmt (s : State) (n : Nat) : (s.useFree n).mgmt = s.mgmt := rfl
@[simp] theorem useFree_faults (s : State) (n : Nat) : (s.useFree n).faults = s.faults := rfl
@[simp] theorem useFree_lanes (s : State) (n : Nat) : (s.useFree n).lanes = s.lanes := rfl
@[simp] theorem useFree_agents (s : State) (n : Nat) : (s.useFree n).agents = s.agents := rfl
@[simp] theorem useFree_windows (s : State) (n : Nat) : (s.useFree n).windows = s.windows := rfl
@[simp] theorem useFree_portRow (s : State) (n : Nat) : (s.useFree n).portRow = s.portRow := rfl
@[simp] theorem useFree_xlat (s : State) (n : Nat) : (s.useFree n).xlat = s.xlat := rfl
@[simp] theorem useFree_areas (s : State) (n : Nat) : (s.useFree n).areas = s.areas := rfl
@[simp] theorem useFree_staging (s : State) (n : Nat) : (s.useFree n).staging = s.staging := rfl
@[simp] theorem useFree_classes (s : State) (n : Nat) : (s.useFree n).classes = s.classes := rfl
@[simp] theorem useFree_port (s : State) (n : Nat) : (s.useFree n).port = s.port := rfl
@[simp] theorem useFree_freeCount (s : State) (n : Nat) : (s.useFree n).freeCount = s.freeCount + n := rfl
@[simp] theorem useFree_lane (s : State) (n : Nat) (k : Lane) : (s.useFree n).lane k = s.lane k := rfl
@[simp] theorem useFree_agent (s : State) (n : Nat) (k : Lane) : (s.useFree n).agent k = s.agent k := rfl
@[simp] theorem useFree_area (s : State) (n : Nat) (k : Fin 16) : (s.useFree n).area k = s.area k := rfl
@[simp] theorem useFree_cls (s : State) (n : Nat) (k : ClassNo) : (s.useFree n).cls k = s.cls k := rfl
@[simp] theorem useFree_memId (s : State) (n : Nat) (k : MemId) : (s.useFree n).memId k = s.memId k := rfl
@[simp] theorem useFree_walk (s : State) (n : Nat) (k : WalkNo) : (s.useFree n).walk k = s.walk k := rfl

/-! ### Tables read back -/

@[simp] theorem updLane_lane_self (s : State) (l : Lane) (f : LaneState → LaneState) :
    (s.updLane l f).lane l = f (s.lane l) := by
  simp [State.updLane, State.lane]

theorem updLane_lane_ne (s : State) {l k : Lane} (f : LaneState → LaneState) (h : k ≠ l) :
    (s.updLane l f).lane k = s.lane k := by
  have : l.val ≠ k.val := fun e => h (Fin.ext e.symm)
  simp [State.updLane, State.lane, this]

theorem updLane_lane (s : State) (l k : Lane) (f : LaneState → LaneState) :
    (s.updLane l f).lane k = if k = l then f (s.lane l) else s.lane k := by
  split
  · subst k; simp
  · exact updLane_lane_ne s f ‹_›

@[simp] theorem setAgent_agent_self (s : State) (l : Lane) (r : AgentRow) : (s.setAgent l r).agent l = r := by
  simp [State.setAgent, State.agent]

theorem setAgent_agent_ne (s : State) {l k : Lane} (r : AgentRow) (h : k ≠ l) :
    (s.setAgent l r).agent k = s.agent k := by
  have : l.val ≠ k.val := fun e => h (Fin.ext e.symm)
  simp [State.setAgent, State.agent, this]

@[simp] theorem updArea_area_self (s : State) (a : Fin 16) (f : Area → Area) :
    (s.updArea a f).area a = f (s.area a) := by
  simp [State.updArea, State.area]

theorem updArea_area_ne (s : State) {a b : Fin 16} (f : Area → Area) (h : b ≠ a) :
    (s.updArea a f).area b = s.area b := by
  have : a.val ≠ b.val := fun e => h (Fin.ext e.symm)
  simp [State.updArea, State.area, this]

theorem updArea_area (s : State) (a b : Fin 16) (f : Area → Area) :
    (s.updArea a f).area b = if b = a then f (s.area a) else s.area b := by
  split
  · subst b; simp
  · exact updArea_area_ne s f ‹_›

@[simp] theorem updClass_cls_self (s : State) (c : ClassNo) (f : BudgetClass → BudgetClass) :
    (s.updClass c f).cls c = f (s.cls c) := by
  simp [State.updClass, State.cls]

theorem updClass_cls_ne (s : State) {c d : ClassNo} (f : BudgetClass → BudgetClass) (h : d ≠ c) :
    (s.updClass c f).cls d = s.cls d := by
  have : c.val ≠ d.val := fun e => h (Fin.ext e.symm)
  simp [State.updClass, State.cls, this]

theorem updClass_cls (s : State) (c d : ClassNo) (f : BudgetClass → BudgetClass) :
    (s.updClass c f).cls d = if d = c then f (s.cls c) else s.cls d := by
  split
  · subst d; simp
  · exact updClass_cls_ne s f ‹_›

@[simp] theorem setId_memId_self (s : State) (i : MemId) (x : IdState) : (s.setId i x).memId i = x := by
  simp [State.setId, State.memId, State.withPort]

theorem setId_memId_ne (s : State) {i j : MemId} (x : IdState) (h : j ≠ i) :
    (s.setId i x).memId j = s.memId j := by
  have : i.val ≠ j.val := fun e => h (Fin.ext e.symm)
  simp [State.setId, State.memId, State.withPort, this]

@[simp] theorem setWalk_walk_self (s : State) (w : WalkNo) (x : Option Walk) : (s.setWalk w x).walk w = x := by
  simp [State.setWalk, State.walk, State.withXlat]

theorem setWalk_walk_ne (s : State) {w v : WalkNo} (x : Option Walk) (h : v ≠ w) :
    (s.setWalk w x).walk v = s.walk v := by
  have : w.val ≠ v.val := fun e => h (Fin.ext e.symm)
  simp [State.setWalk, State.walk, State.withXlat, this]

@[simp] theorem mapVec_get {α β : Type} {n : Nat} (f : α → β) (v : Vector α n) (i : Fin n) :
    (mapVec f v)[i] = f v[i] := by
  simp [mapVec]

@[simp] theorem mapVec_getNat {α β : Type} {n : Nat} (f : α → β) (v : Vector α n) (i : Nat) (h : i < n) :
    (mapVec f v)[i] = f v[i] := by
  simp [mapVec]

/-- Two states whose lanes read the same have the same lanes. -/
theorem lanes_ext {s t : State} (h : ∀ l, s.lane l = t.lane l) : s.lanes = t.lanes := by
  apply Vector.ext
  intro i hi
  exact h ⟨i, hi⟩

/-! ### Taking each element of a list in turn -/

@[simp] theorem forEach_nil {α : Type} (f : α → State → State) (s : State) : forEach [] f s = s := rfl

@[simp] theorem forEach_cons {α : Type} (x : α) (xs : List α) (f : α → State → State) (s : State) :
    forEach (x :: xs) f s = forEach xs f (f x s) := rfl

/-- A relation that each element's step keeps, and that is reflexive and transitive, holds over the whole list. -/
theorem forEach_rel {α : Type} (R : State → State → Prop) (refl : ∀ s, R s s)
    (trans : ∀ s t u, R s t → R t u → R s u) (f : α → State → State) (step : ∀ x s, R s (f x s)) :
    ∀ (xs : List α) (s : State), R s (forEach xs f s)
  | [], s => refl s
  | x :: xs, s => trans _ _ _ (step x s) (forEach_rel R refl trans f step xs (f x s))

end Sys2Proof.Machine
end

