-- ==== Sys2Proof/Laws/Memory.lean ====
section
/-! SUPPORT. The staging storage: every operation keeps the canonical form, and what a read gives after each. -/

namespace Sys2Proof.Machine

/-- The canonical form as a pairwise order of addresses. -/
theorem Memory.wf_iff_pairwise : ∀ m : Memory, Memory.wf m = true ↔ m.Pairwise (fun c d => c.1 < d.1)
  | [] => by simp [Memory.wf]
  | [c] => by simp [Memory.wf]
  | (x, v) :: (y, w) :: m => by
    rw [Memory.wf, Bool.and_eq_true, Memory.wf_iff_pairwise ((y, w) :: m), decide_eq_true_iff]
    constructor
    · rintro ⟨h, p⟩
      refine List.pairwise_cons.2 ⟨?_, p⟩
      intro d hd
      rcases List.mem_cons.1 hd with e | e
      · subst e; exact h
      · exact lt_trans h ((List.pairwise_cons.1 p).1 d e)
    · intro p
      exact ⟨(List.pairwise_cons.1 p).1 (y, w) (List.mem_cons_self ..), (List.pairwise_cons.1 p).2⟩

theorem Memory.mem_write {m : Memory} {a : Nat} {b : Byte} {c : Host.Cell} (h : c ∈ Memory.write m a b) :
    c = (a, b) ∨ c ∈ m := by
  induction m with
  | nil => simpa [Memory.write] using h
  | cons d m ih =>
    obtain ⟨x, v⟩ := d
    rw [Memory.write] at h
    split at h
    · simpa using h
    · split at h
      · rcases List.mem_cons.1 h with e | e
        · exact .inl e
        · exact .inr (List.mem_cons_of_mem _ e)
      · rcases List.mem_cons.1 h with e | e
        · exact .inr (e ▸ List.mem_cons_self ..)
        · rcases ih e with e | e
          · exact .inl e
          · exact .inr (List.mem_cons_of_mem _ e)

theorem Memory.write_wf {m : Memory} (h : Memory.wf m = true) (a : Nat) (b : Byte) :
    Memory.wf (Memory.write m a b) = true := by
  rw [Memory.wf_iff_pairwise] at h ⊢
  induction m with
  | nil => simp [Memory.write]
  | cons d m ih =>
    obtain ⟨x, v⟩ := d
    have hd := List.pairwise_cons.1 h
    rw [Memory.write]
    split
    · rename_i hlt
      refine List.pairwise_cons.2 ⟨?_, h⟩
      intro c hc
      rcases List.mem_cons.1 hc with e | e
      · subst e; exact hlt
      · exact lt_trans hlt (hd.1 c e)
    · split
      · rename_i heq
        subst heq
        exact List.pairwise_cons.2 ⟨hd.1, hd.2⟩
      · rename_i h1 h2
        refine List.pairwise_cons.2 ⟨?_, ih hd.2⟩
        intro c hc
        rcases Memory.mem_write hc with e | e
        · subst e; dsimp only; omega
        · exact hd.1 c e

theorem Memory.dropUnit_wf {m : Memory} (h : Memory.wf m = true) (u : Nat) :
    Memory.wf (Memory.dropUnit m u) = true := by
  rw [Memory.wf_iff_pairwise] at h ⊢
  exact h.filter _

theorem Memory.dropUnits_wf {m : Memory} (h : Memory.wf m = true) (us : List Nat) :
    Memory.wf (us.foldl Memory.dropUnit m) = true := by
  induction us generalizing m with
  | nil => exact h
  | cons u us ih => exact ih (Memory.dropUnit_wf h u)

theorem Memory.put_wf {m : Memory} (h : Memory.wf m = true) (units : List Nat) (k : Nat) (bs : List Byte) :
    Memory.wf (Memory.put m units k bs) = true := by
  induction bs generalizing m k with
  | nil => exact h
  | cons b bs ih =>
    rw [Memory.put]
    split
    · exact ih (Memory.write_wf h _ _) _
    · exact ih h _

/-- A byte reads back as written (no form is needed: the first entry of the address is the one read). -/
@[simp] theorem Memory.read_write_self (m : Memory) (a : Nat) (b : Byte) :
    Memory.read (Memory.write m a b) a = some b := by
  induction m with
  | nil => simp [Memory.write, Memory.read]
  | cons d m ih =>
    obtain ⟨x, v⟩ := d
    rw [Memory.write]
    split
    · simp [Memory.read]
    · split
      · simp [Memory.read]
      · rename_i h1 h2
        have : ¬ x = a := fun e => h2 e.symm
        simp [Memory.read, this, ih]

/-- A write changes no other byte. -/
theorem Memory.read_write_ne (m : Memory) {a c : Nat} (b : Byte) (h : c ≠ a) :
    Memory.read (Memory.write m a b) c = Memory.read m c := by
  have ha : ¬ a = c := fun e => h e.symm
  induction m with
  | nil => simp [Memory.write, Memory.read, ha]
  | cons d m ih =>
    obtain ⟨x, v⟩ := d
    rw [Memory.write]
    split
    · simp [Memory.read, ha]
    · split
      · rename_i h1 h2
        subst h2
        simp [Memory.read, ha]
      · rw [Memory.read, Memory.read, ih]

/-- A byte of another unit stays when a unit's contents are dropped. -/
theorem Memory.read_dropUnit_ne (m : Memory) {u a : Nat} (h : a / Config.unitBytes ≠ u) :
    Memory.read (Memory.dropUnit m u) a = Memory.read m a := by
  induction m with
  | nil => rfl
  | cons d m ih =>
    obtain ⟨x, v⟩ := d
    by_cases hx : x / Config.unitBytes = u
    · have hne : ¬ x = a := fun e => h (e ▸ hx)
      have : Memory.dropUnit ((x, v) :: m) u = Memory.dropUnit m u := by simp [Memory.dropUnit, hx]
      rw [this, ih, Memory.read, if_neg hne]
    · have : Memory.dropUnit ((x, v) :: m) u = (x, v) :: Memory.dropUnit m u := by simp [Memory.dropUnit, hx]
      rw [this, Memory.read, Memory.read, ih]

/-- A dropped unit holds nothing. -/
theorem Memory.read_dropUnit_self (m : Memory) {u a : Nat} (h : a / Config.unitBytes = u) :
    Memory.read (Memory.dropUnit m u) a = none := by
  induction m with
  | nil => rfl
  | cons d m ih =>
    obtain ⟨x, v⟩ := d
    by_cases hx : x / Config.unitBytes = u
    · have : Memory.dropUnit ((x, v) :: m) u = Memory.dropUnit m u := by simp [Memory.dropUnit, hx]
      rw [this, ih]
    · have hne : ¬ x = a := fun e => hx (e ▸ h)
      have : Memory.dropUnit ((x, v) :: m) u = (x, v) :: Memory.dropUnit m u := by simp [Memory.dropUnit, hx]
      rw [this, Memory.read, if_neg hne, ih]

/-- Bytes put at places whose addresses are not `a` leave the byte at `a`. -/
theorem Memory.read_put_ne (units : List Nat) (a : Nat) : ∀ (bs : List Byte) (m : Memory) (k : Nat),
    (∀ j, k ≤ j → j < k + bs.length → placeAddress units j ≠ some a) →
    Memory.read (Memory.put m units k bs) a = Memory.read m a
  | [], _, _, _ => rfl
  | b :: bs, m, k, h => by
    have hk := h k (Nat.le_refl k) (by simp)
    have ht : ∀ j, k + 1 ≤ j → j < k + 1 + bs.length → placeAddress units j ≠ some a := by
      intro j h1 h2
      exact h j (by omega) (by simp; omega)
    rw [Memory.put]
    split
    · rename_i c hc
      rw [Memory.read_put_ne units a bs _ _ ht, Memory.read_write_ne]
      intro e
      exact hk (hc.trans (by rw [e]))
    · exact Memory.read_put_ne units a bs _ _ ht

/-- Different places of different units have different addresses. -/
theorem placeAddress_inj {units : List Nat} (hn : units.Nodup) {j k a : Nat} (hj : placeAddress units j = some a)
    (hk : placeAddress units k = some a) : j = k := by
  simp only [placeAddress, Config.unitBytes] at hj hk
  obtain ⟨u, hu, ea⟩ := Option.map_eq_some_iff.1 hj
  obtain ⟨v, hv, eb⟩ := Option.map_eq_some_iff.1 hk
  have huv : u = v := by omega
  have hmod : j % 64 = k % 64 := by omega
  subst huv
  have hdiv : j / 64 = k / 64 := by
    obtain ⟨h1, e1⟩ := List.getElem?_eq_some_iff.1 hu
    obtain ⟨h2, e2⟩ := List.getElem?_eq_some_iff.1 hv
    exact (List.Nodup.getElem_inj_iff hn).1 (e1.trans e2.symm)
  omega

/-- Bytes put at successive places of different units read back as put (R91, R96). -/
theorem Memory.read_put {units : List Nat} (hn : units.Nodup) : ∀ (bs : List Byte) (m : Memory) (k j a : Nat),
    j < bs.length → placeAddress units (k + j) = some a → Memory.read (Memory.put m units k bs) a = bs[j]?
  | [], _, _, _, _, hj, _ => by simp at hj
  | b :: bs, m, k, 0, a, _, ha => by
    rw [Memory.put]
    rw [Nat.add_zero] at ha
    split
    · rename_i c hc
      have hca : c = a := Option.some.inj (hc.symm.trans ha)
      subst hca
      rw [Memory.read_put_ne]
      · simp
      · intro i hi _ e
        have := placeAddress_inj hn e hc
        omega
    · rename_i hc
      rw [hc] at ha
      cases ha
  | b :: bs, m, k, j + 1, a, hj, ha => by
    have hj' : j < bs.length := by simpa using hj
    have ha' : placeAddress units (k + 1 + j) = some a := by
      rw [← ha]; congr 1; omega
    rw [Memory.put]
    split
    · simpa using Memory.read_put hn bs _ _ j a hj' ha'
    · simpa using Memory.read_put hn bs _ _ j a hj' ha'

/-- The storage after line reset is in canonical form. -/
theorem reset_staging_wf : Memory.wf State.reset.staging = true := rfl

end Sys2Proof.Machine
end

