-- ==== Sys2Proof/Laws/Frames.lean ====
section
/-! SUPPORT. What the shared operations on traffic can do: one relation `Inner`, and one lemma an operation that says it holds from
the state before to the state after. -/

namespace Sys2Proof.Machine

/-- What no shared operation on traffic changes, and the laws it keeps. -/
structure Inner (s t : State) : Prop where
  pending : t.pending = s.pending
  timebase : t.timebase = s.timebase
  link : t.link = s.link
  faults : t.faults = s.faults
  agents : t.agents = s.agents
  windows : t.windows = s.windows
  portRow : t.portRow = s.portRow
  claim : t.mgmt.claim = s.mgmt.claim
  strapped : t.mgmt.strapped = s.mgmt.strapped
  confirmTimer : t.mgmt.confirmTimer = s.mgmt.confirmTimer
  manager : t.mgmt.manager = s.mgmt.manager
  locked : t.mgmt.locked = s.mgmt.locked
  forfeit : t.mgmt.forfeit = s.mgmt.forfeit
  opSome : t.mgmt.op.isSome = true → s.mgmt.op.isSome = true
  reply : s.mgmt.forfeit = true → t.mgmt.reply = s.mgmt.reply
  replyOp : s.mgmt.op = none → t.mgmt.reply = s.mgmt.reply
  areaRow : ∀ a, (t.area a).row = (s.area a).row
  classRow : ∀ c, (t.cls c).row = (s.cls c).row
  number : ∀ l, (t.lane l).number = (s.lane l).number
  tags : ∀ l, (t.lane l).tags.Sublist (s.lane l).tags
  drain : ∀ l, (s.lane l).drainLaw → (t.lane l).drainLaw
  openLaw : ∀ c, (s.cls c).openLaw → (t.cls c).openLaw
  cache : s.xlat.cache.length ≤ 32 → t.xlat.cache.length ≤ 32
  staging : Memory.wf s.staging = true → Memory.wf t.staging = true

theorem Inner.refl (s : State) : Inner s s := by
  constructor <;> intros <;> first | rfl | assumption

theorem Inner.trans {s t u : State} (a : Inner s t) (b : Inner t u) : Inner s u where
  pending := b.pending.trans a.pending
  timebase := b.timebase.trans a.timebase
  link := b.link.trans a.link
  faults := b.faults.trans a.faults
  agents := b.agents.trans a.agents
  windows := b.windows.trans a.windows
  portRow := b.portRow.trans a.portRow
  claim := b.claim.trans a.claim
  strapped := b.strapped.trans a.strapped
  confirmTimer := b.confirmTimer.trans a.confirmTimer
  manager := b.manager.trans a.manager
  locked := b.locked.trans a.locked
  forfeit := b.forfeit.trans a.forfeit
  opSome h := a.opSome (b.opSome h)
  reply h := (b.reply (a.forfeit.trans h)).trans (a.reply h)
  replyOp h := by
    have ht : t.mgmt.op = none := by
      cases e : t.mgmt.op with
      | none => rfl
      | some o =>
        have := a.opSome (by simp [e])
        rw [h] at this
        cases this
    exact (b.replyOp ht).trans (a.replyOp h)
  areaRow k := (b.areaRow k).trans (a.areaRow k)
  classRow c := (b.classRow c).trans (a.classRow c)
  number l := (b.number l).trans (a.number l)
  tags l := (b.tags l).trans (a.tags l)
  drain l h := b.drain l (a.drain l h)
  openLaw c h := b.openLaw c (a.openLaw c h)
  cache h := b.cache (a.cache h)
  staging h := b.staging (a.staging h)

/-- The laws of the down link hold after an operation on traffic. -/
theorem Inner.downLaw {s t : State} (a : Inner s t) (h : DownLaw s) : DownLaw t := by
  intro hd
  have hs : s.linkUp = false := by unfold State.linkUp at hd ⊢; rw [← a.link]; exact hd
  obtain ⟨h1, h2, h3, h4⟩ := h hs
  refine ⟨by rw [a.link]; exact h1, by rw [a.link]; exact h2, ?_, fun ho => ?_⟩
  · cases e : s.mgmt.op with
    | none => rw [a.replyOp e]; exact h3
    | some o => rw [a.reply (h4 (by simp [e]))]; exact h3
  · rw [a.forfeit]; exact h4 (a.opSome ho)

theorem forEach_inner {α : Type} (f : α → State → State) (h : ∀ x s, Inner s (f x s)) (xs : List α) (s : State) :
    Inner s (forEach xs f s) :=
  forEach_rel Inner Inner.refl (fun _ _ _ => Inner.trans) f h xs s

/-! ### The updates -/

/-- What an update of a lane's record keeps. -/
structure LaneKept (r q : LaneState) : Prop where
  number : q.number = r.number
  tags : q.tags.Sublist r.tags
  drain : r.drainLaw → q.drainLaw

theorem inner_updLane (s : State) (l : Lane) (f : LaneState → LaneState) (h : LaneKept (s.lane l) (f (s.lane l))) :
    Inner s (s.updLane l f) where
  pending := rfl
  timebase := rfl
  link := rfl
  faults := rfl
  agents := rfl
  windows := rfl
  portRow := rfl
  claim := rfl
  strapped := rfl
  confirmTimer := rfl
  manager := rfl
  locked := rfl
  forfeit := rfl
  opSome := id
  reply _ := rfl
  replyOp _ := rfl
  areaRow _ := rfl
  classRow _ := rfl
  number k := by rw [updLane_lane]; split
                 · subst k; exact h.number
                 · rfl
  tags k := by rw [updLane_lane]; split
               · subst k; exact h.tags
               · exact List.Sublist.refl _
  drain k hk := by rw [updLane_lane]; split
                   · subst k; exact h.drain hk
                   · exact hk
  openLaw _ := id
  cache := id
  staging := id

theorem inner_updArea (s : State) (a : Fin 16) (f : Area → Area) (h : (f (s.area a)).row = (s.area a).row) :
    Inner s (s.updArea a f) := by
  refine { Inner.refl s with areaRow := fun b => ?_ }
  rw [updArea_area]; split
  · subst b; exact h
  · rfl

theorem inner_updClass (s : State) (c : ClassNo) (f : BudgetClass → BudgetClass)
    (h : (f (s.cls c)).row = (s.cls c).row) (ho : (s.cls c).openLaw → (f (s.cls c)).openLaw) :
    Inner s (s.updClass c f) := by
  refine { Inner.refl s with classRow := fun d => ?_, openLaw := fun d hd => ?_ }
  · rw [updClass_cls]; split
    · subst d; exact h
    · rfl
  · rw [updClass_cls]; split
    · subst d; exact ho hd
    · exact hd

theorem inner_withXlat (s : State) (f : Translation → Translation)
    (h : s.xlat.cache.length ≤ 32 → (f s.xlat).cache.length ≤ 32) : Inner s (s.withXlat f) :=
  { Inner.refl s with cache := h }

theorem inner_withPort (s : State) (f : MemoryPort → MemoryPort) : Inner s (s.withPort f) :=
  { Inner.refl s with }

theorem inner_setId (s : State) (i : MemId) (x : IdState) : Inner s (s.setId i x) := inner_withPort s _

theorem inner_setWalk (s : State) (w : WalkNo) (x : Option Walk) : Inner s (s.setWalk w x) :=
  inner_withXlat s _ id

theorem inner_useFree (s : State) (n : Nat) : Inner s (s.useFree n) := { Inner.refl s with }

theorem inner_withStaging (s : State) (f : Memory → Memory)
    (h : Memory.wf s.staging = true → Memory.wf (f s.staging) = true) : Inner s (s.withStaging f) :=
  { Inner.refl s with staging := h }

/-! ### Records of lanes -/

theorem LaneKept.refl (r : LaneState) : LaneKept r r := ⟨rfl, List.Sublist.refl _, id⟩

theorem LaneKept.trans {r q p : LaneState} (a : LaneKept r q) (b : LaneKept q p) : LaneKept r p :=
  ⟨b.number.trans a.number, b.tags.trans a.tags, fun h => b.drain (a.drain h)⟩

@[simp] theorem updSlot_tags (r : LaneState) (tag : Tag) (f : Slot → Slot) (h : ∀ q, (f q).tag = q.tag) :
    (r.updSlot tag f).tags = r.tags := by
  unfold LaneState.updSlot LaneState.tags
  rw [List.map_map]
  apply List.map_congr_left
  intro q _
  simp only [Function.comp]
  split
  · exact h q
  · rfl

theorem updSlot_kept (r : LaneState) (tag : Tag) (f : Slot → Slot) (h : ∀ q, (f q).tag = q.tag) :
    LaneKept r (r.updSlot tag f) :=
  ⟨rfl, by rw [updSlot_tags r tag f h], id⟩

theorem dropSlot_kept (r : LaneState) (tag : Tag) : LaneKept r (r.dropSlot tag) :=
  ⟨rfl, (List.filter_sublist).map _, id⟩

theorem leaveIssued_kept (r : LaneState) (q : Slot) : LaneKept r (r.leaveIssued q) := by
  unfold LaneState.leaveIssued
  split
  · exact ⟨rfl, List.Sublist.refl _, id⟩
  · exact LaneKept.refl r

theorem detach_kept (r : LaneState) : LaneKept r r.detach :=
  ⟨rfl, List.Sublist.refl _, fun _ => by simp [LaneState.detach, LaneState.drainLaw]⟩

/-! ### Slots -/

theorem updSlot_inner (s : State) (l : Lane) (tag : Tag) (f : Slot → Slot) (h : ∀ q, (f q).tag = q.tag) :
    Inner s (s.updSlot l tag f) :=
  inner_updLane s l _ (updSlot_kept _ tag f h)

theorem updPiece_inner (s : State) (p : PieceRef) (f : Piece → Piece) : Inner s (s.updPiece p f) :=
  updSlot_inner s p.lane p.tag _ fun _ => rfl

theorem handItem_inner (l : Lane) (x : StreamItem) (s : State) : Inner s (handItem l x s) :=
  inner_updLane s l _ ⟨rfl, List.Sublist.refl _, id⟩

theorem handAnswer_inner (l : Lane) (s : State) : Inner s (handAnswer l s) := by
  unfold handAnswer
  split
  · split
    · exact handItem_inner l _ s
    · exact Inner.refl s
  · exact Inner.refl s

theorem grantRule_inner (l : Lane) (s : State) : Inner s (grantRule l s) := by
  unfold grantRule
  split
  · exact inner_updLane s l _ ⟨rfl, List.Sublist.refl _, id⟩
  · exact Inner.refl s

theorem releaseUnits_inner (l : Lane) (tag : Tag) (gone : HeldUnit → Bool) (s : State) :
    Inner s (releaseUnits l tag gone s) := by
  unfold releaseUnits
  split
  · exact Inner.refl s
  · rename_i q _
    have h1 : Inner s ((s.updSlot l tag fun q => { q with held := q.held.filter fun u => !gone u }).withStaging fun m =>
        ((q.held.filter gone).map (·.unit)).foldl Memory.dropUnit m) :=
      (updSlot_inner s l tag (fun q => { q with held := q.held.filter fun u => !gone u }) fun _ => rfl).trans
        (inner_withStaging _ _ fun h => Memory.dropUnits_wf h _)
    dsimp only
    split
    · exact (h1.trans (inner_updArea _ _ _ rfl)).trans (grantRule_inner _ _)
    · exact h1.trans (inner_updArea _ _ _ rfl)

theorem reserveUnits_inner (l : Lane) (tag : Tag) (n : Nat) (s : State) : Inner s (reserveUnits l tag n s) := by
  unfold reserveUnits
  exact (updSlot_inner _ _ _ _ (by intro _; rfl)).trans (inner_updArea _ _ _ rfl)

theorem fillPiece_inner (l : Lane) (tag : Tag) (upper : Bool) (masks : List (BitVec 8)) (beats : List Beat)
    (s : State) : Inner s (fillPiece l tag upper masks beats s) := by
  unfold fillPiece
  split
  · exact Inner.refl s
  · split
    · exact Inner.refl s
    · dsimp only
      exact ((updSlot_inner s l tag _ (by intro _; rfl)).trans
        (inner_withStaging _ _ fun h => Memory.put_wf h _ _ _)).trans (inner_updArea _ _ _ rfl)

/-! ### Walks -/

theorem dropWaiters_inner (l : Lane) (tag : Tag) (s : State) : Inner s (dropWaiters l tag s) :=
  inner_withXlat s _ id

theorem takeIndex_inner (w : WalkNo) (s : State) : Inner s (takeIndex w s) := by
  unfold takeIndex
  split
  · exact inner_withXlat s _ id
  · exact Inner.refl s

theorem takeIndexes_inner (s : State) : Inner s (takeIndexes s) := forEach_inner _ takeIndex_inner _ s

theorem joinWaiters_inner (index : Nat) (p : PieceRef) (s : State) : Inner s (joinWaiters index p s) := by
  unfold joinWaiters
  split
  · exact inner_setWalk s _ _
  · refine inner_withXlat s _ fun h => ?_
    split <;> exact h

/-! ### RESTART -/

theorem settleOp_inner (s : State) : Inner s (settleOp s) := by
  unfold settleOp
  split
  · rename_i o ho
    split
    · split
      · exact { Inner.refl s with opSome := (fun h => by cases h), reply := fun _ => rfl, replyOp := fun _ => rfl }
      · split
        · rename_i hf _
          exact { Inner.refl s with
            opSome := fun h => by cases h
            reply := fun h => absurd h hf
            replyOp := fun h => by rw [h] at ho; cases ho }
        · exact Inner.refl s
    · exact Inner.refl s
  · exact Inner.refl s

theorem endOp_inner (s : State) : Inner s (endOp s) := by
  unfold endOp
  refine Inner.trans (t := s.withMgmt fun m => { m with op := m.op.map fun o => { o with ended := true } }) ?_
    (settleOp_inner _)
  exact { Inner.refl s with opSome := fun h => by simpa using h }

theorem reopened_openLaw (c : BudgetClass) : c.reopened.openLaw := fun _ => ⟨rfl, rfl⟩

theorem finalChange_inner (s : State) : Inner s (finalChange s) := by
  unfold finalChange
  refine Inner.trans ?_ (endOp_inner _)
  refine { Inner.refl s with classRow := fun c => ?_, openLaw := fun c _ => ?_, cache := fun _ => by simp }
  · simp [State.cls, BudgetClass.reopened]
  · have : (State.cls { s with
      port := { s.port with ids := mapVec IdState.released s.port.ids, run := none }
      xlat := { s.xlat with cache := [], walks := mapVec readyFreed s.xlat.walks }
      classes := mapVec BudgetClass.reopened s.classes
      mgmt := { s.mgmt with restarts := s.mgmt.restarts + 1, stage := .none } } c) = (s.cls c).reopened := by
      simp [State.cls]
    rw [this]
    exact reopened_openLaw _

theorem restartMemory_inner (s : State) : Inner s (restartMemory s) := by
  unfold restartMemory
  split
  · exact finalChange_inner s
  · exact Inner.refl s

theorem setStage_inner (s : State) (x : RestartStage) : Inner s (s.withMgmt fun m => { m with stage := x }) :=
  { Inner.refl s with }

theorem restartProgress_inner (s : State) : Inner s (restartProgress s) := by
  unfold restartProgress
  split
  · exact (setStage_inner s _).trans (restartMemory_inner _)
  · exact restartMemory_inner s

/-! ### Slots and drains -/

theorem enterDetached_inner (l : Lane) (s : State) : Inner s (enterDetached l s) := by
  unfold enterDetached
  refine Inner.trans (inner_updLane s l _ (detach_kept _)) ?_
  dsimp only
  split
  · exact (endOp_inner _).trans (restartProgress_inner _)
  · exact restartProgress_inner _

theorem closeDrain_inner (l : Lane) (s : State) : Inner s (closeDrain l s) := by
  unfold closeDrain
  split
  · exact enterDetached_inner l s
  · exact Inner.refl s

theorem completeSlot_inner (l : Lane) (tag : Tag) (st : RespStatus) (s : State) :
    Inner s (completeSlot l tag st s) := by
  unfold completeSlot
  split
  · exact Inner.refl s
  · exact (((inner_updLane s l _ ((leaveIssued_kept _ _).trans (updSlot_kept _ _ _ (by intro _; rfl)))).trans
      (dropWaiters_inner l tag _)).trans (releaseUnits_inner l tag _ _)).trans (handAnswer_inner l _)

theorem discardSlot_inner (l : Lane) (tag : Tag) (s : State) : Inner s (discardSlot l tag s) := by
  unfold discardSlot
  split
  · exact Inner.refl s
  · exact ((dropWaiters_inner l tag s).trans (releaseUnits_inner l tag _ _)).trans
      (inner_updLane _ l _ ((leaveIssued_kept _ _).trans (dropSlot_kept _ _)))

theorem freeSlot_inner (l : Lane) (tag : Tag) (s : State) : Inner s (freeSlot l tag s) := by
  unfold freeSlot
  exact (releaseUnits_inner l tag _ s).trans (inner_updLane _ l _ (dropSlot_kept _ _))

theorem afterLeaving_inner (l : Lane) (s : State) : Inner s (afterLeaving l s) :=
  (handAnswer_inner l s).trans (closeDrain_inner l _)

theorem openAnswered_inner (l : Lane) (leaveTag : Tag) (s : State) : Inner s (openAnswered l leaveTag s) := by
  unfold openAnswered
  exact ((inner_updLane s l _ ⟨rfl, List.Sublist.refl _, fun _ => by simp [LaneState.drainLaw]⟩).trans
    (forEach_inner _ (fun tag s => completeSlot_inner l tag _ s) _ _)).trans (closeDrain_inner l _)

theorem silence_inner (l : Lane) (s : State) : Inner s (silence l s) := by
  unfold silence
  exact ((inner_updLane s l _ ⟨rfl, List.Sublist.refl _, fun _ => by simp [LaneState.drainLaw]⟩).trans
    (forEach_inner _ (discardSlot_inner l) _ _)).trans (closeDrain_inner l _)

theorem silenceNew_inner (l : Lane) (s : State) : Inner s (silenceNew l s) := by
  unfold silenceNew
  split
  · exact Inner.refl s
  · exact silence_inner l s

theorem silenceJoined_inner (l : Lane) (s : State) : Inner s (silenceJoined l s) := by
  unfold silenceJoined
  split
  · exact Inner.refl s
  · exact silence_inner l s

/-! ### Translation -/

theorem translatePiece_inner (p : PieceRef) (a : MemAddr) (s : State) : Inner s (translatePiece p a s) :=
  updPiece_inner s p _

theorem failPiece_inner (p : PieceRef) (s : State) : Inner s (failPiece p s) := updPiece_inner s p _

theorem queueIfDone_inner (l : Lane) (tag : Tag) (s : State) : Inner s (queueIfDone l tag s) := by
  unfold queueIfDone
  refine updSlot_inner s l tag _ fun q => ?_
  split <;> rfl

theorem lookPiece_inner (l : Lane) (q : Slot) (upper : Bool) (index : Nat) (k : Lookups) :
    Inner k.state (lookPiece l q upper index k).state := by
  unfold lookPiece
  split
  · exact failPiece_inner _ _
  · split
    · exact translatePiece_inner _ _ _
    · exact failPiece_inner _ _
  · exact joinWaiters_inner _ _ _

theorem lookPieces_inner (l : Lane) (q : Slot) (s : State) : Inner s (lookPieces l q s).state := by
  unfold lookPieces
  suffices h : ∀ (xs : List (Piece × Bool)) (k : Lookups), Inner s k.state →
      Inner s (xs.foldl (fun k x => lookPiece l q x.2 (x.1.entry.getD 0) k) k).state from h _ _ (Inner.refl s)
  intro xs
  induction xs with
  | nil => exact fun k h => h
  | cons x xs ih => exact fun k h => ih _ (h.trans (lookPiece_inner l q _ _ k))

theorem failWaiter_inner (st : RespStatus) (p : PieceRef) (s : State) : Inner s (failWaiter st p s) :=
  (failPiece_inner p s).trans (completeSlot_inner _ _ _ _)

theorem checkWaiter_inner (e : CacheEntry) (p : PieceRef) (k : State × List Report) :
    Inner k.1 (checkWaiter e p k).1 := by
  unfold checkWaiter
  split
  · exact Inner.refl _
  · split
    · exact (translatePiece_inner _ _ _).trans (queueIfDone_inner _ _ _)
    · exact failWaiter_inner _ _ _

theorem checkWaiters_inner (e : CacheEntry) (ws : List PieceRef) (s : State) : Inner s (checkWaiters e ws s).1 := by
  unfold checkWaiters
  suffices h : ∀ (xs : List PieceRef) (k : State × List Report), Inner s k.1 →
      Inner s (xs.foldl (fun k p => checkWaiter e p k) k).1 from h _ _ (Inner.refl s)
  intro xs
  induction xs with
  | nil => exact fun k h => h
  | cons x xs ih => exact fun k h => ih _ (h.trans (checkWaiter_inner e x k))

theorem failWalk_inner (w : WalkNo) (ws : List PieceRef) (s : State) : Inner s (failWalk w ws s) := by
  unfold failWalk
  exact ((inner_setWalk s w none).trans (forEach_inner _ (failWaiter_inner _) _ _)).trans (takeIndexes_inner _)

theorem install_length {e : CacheEntry} {cache : List CacheEntry} (h : cache.length ≤ 32) :
    (install e cache).length ≤ 32 := by
  unfold install
  rw [List.length_append]
  split
  · rename_i hlt; simp only [Config.cacheEntries] at hlt; simp; omega
  · rename_i hlt
    simp only [Config.cacheEntries] at hlt
    rw [List.length_tail]
    simp
    omega

theorem walkOutcome_inner (w : WalkNo) (o : Outcome) (value : Beat) (address : MemAddr) (s : State) :
    Inner s (walkOutcome w o value address s).1 := by
  unfold walkOutcome
  split
  · exact Inner.refl s
  · split
    · exact inner_setWalk s _ _
    · split
      · exact failWalk_inner _ _ s
      · split
        · exact failWalk_inner _ _ s
        · dsimp only
          exact (((inner_setWalk s w none).trans (inner_withXlat _ _ install_length)).trans
            (checkWaiters_inner _ _ _)).trans (takeIndexes_inner _)

/-! ### The memory port -/

theorem settleSlot_inner (l : Lane) (tag : Tag) (s : State) : Inner s (settleSlot l tag s) := by
  unfold settleSlot
  split
  · exact Inner.refl s
  · split
    · split
      · exact (discardSlot_inner l tag s).trans (afterLeaving_inner l _)
      · exact completeSlot_inner l tag _ s
    · exact Inner.refl s

theorem pieceOutcome_inner (ref : PieceRef) (o : Outcome) (txn : Transaction) (beats : List Beat) (s : State) :
    Inner s (pieceOutcome ref o txn beats s) := by
  unfold pieceOutcome
  refine Inner.trans ?_ (settleSlot_inner _ _ _)
  split
  · split
    · exact (updPiece_inner s _ _).trans (fillPiece_inner _ _ _ _ _ _)
    · exact updPiece_inner s _ _
  · exact updPiece_inner s _ _

theorem handOutcome_inner (owner : Owner) (o : Outcome) (txn : Transaction) (beats : List Beat) (s : State) :
    Inner s (handOutcome owner o txn beats s).1 := by
  unfold handOutcome
  split
  · exact pieceOutcome_inner _ _ _ _ s
  · exact (inner_useFree s 1).trans (walkOutcome_inner _ _ _ _ _)

theorem issuePiece_inner (l : Lane) (q : Slot) (upper : Bool) (p : Piece) (i : MemId) (s : State) :
    Inner s (issuePiece l q upper p i s) := by
  unfold issuePiece
  exact ((updPiece_inner s _ _).trans (inner_setId _ _ _)).trans (inner_useFree _ _)

theorem issuePieces_inner (l : Lane) (q : Slot) (ids : List MemId) (s : State) : Inner s (issuePieces l q ids s) :=
  forEach_inner _ (fun _ s => issuePiece_inner _ _ _ _ _ s) _ s

theorem charge_openLaw {c : BudgetClass} (n : Nat) (h : c.openLaw) : (c.charge n).openLaw := by
  intro hh
  have hc : c.holding = false := hh
  exact ⟨(h hc).1, by simp [BudgetClass.charge, hc, (h hc).2]⟩

theorem cross_openLaw {c : BudgetClass} (h : c.openLaw) : c.cross.openLaw := by
  unfold BudgetClass.cross
  split
  · intro hh; cases hh
  · exact h

theorem cross_row (c : BudgetClass) : c.cross.row = c.row := by
  unfold BudgetClass.cross
  split <;> rfl

theorem chargeClass_inner (l : Lane) (dir : Dir) (n : Nat) (s : State) : Inner s (chargeClass l dir n s).1 := by
  unfold chargeClass
  dsimp only
  split
  · exact Inner.refl s
  · split
    · exact inner_updClass s (s.agent l).cls (fun c => (c.charge n).cross) (cross_row _)
        fun h => cross_openLaw (charge_openLaw n h)
    · exact inner_updClass s (s.agent l).cls (fun c => c.charge n) rfl fun h => charge_openLaw n h

theorem invalidateScope_inner (sc : Scope) (s : State) : Inner s (invalidateScope sc s) :=
  inner_withXlat s _ fun h => le_trans (List.length_filter_le _ _) h

end Sys2Proof.Machine
end

