-- ==== Sys2Proof/Laws/Reports.lean ====
section
/-! SUPPORT. What taking fault reports can do (R140 to R147), and the operations at the memory port that report: one relation `Kept`. -/

namespace Sys2Proof.Machine

/-! ### The fault unit -/

/-- What the fault unit keeps when it takes a report or discards notices. -/
structure FaultsKept (u v : FaultUnit) : Prop where
  routes : v.routes = u.routes
  alert : u.alert = u.lineInLog → v.alert = v.lineInLog
  log : u.log.length ≤ 8 → v.log.length ≤ 8
  notices : u.notices.length ≤ 4 → v.notices.length ≤ 4

theorem FaultsKept.refl (u : FaultUnit) : FaultsKept u u := ⟨rfl, id, id, id⟩

theorem FaultsKept.trans {u v w : FaultUnit} (a : FaultsKept u v) (b : FaultsKept v w) : FaultsKept u w :=
  ⟨b.routes.trans a.routes, fun h => b.alert (a.alert h), fun h => b.log (a.log h), fun h => b.notices (a.notices h)⟩

/-- Removing a record of a rank that is present shortens the log by one. -/
theorem removeNewest_length (rank : Nat) : ∀ xs : List FaultRecord, (∃ r ∈ xs, r.rank = rank) →
    (removeNewest rank xs).length + 1 = xs.length
  | [], h => by simp at h
  | r :: rs, h => by
    rw [removeNewest]
    split
    · rename_i hany
      have : ∃ x ∈ rs, x.rank = rank := by simpa using hany
      simp [removeNewest_length rank rs this]
    · rename_i hany
      have hr : r.rank = rank := by
        obtain ⟨x, hx, e⟩ := h
        rcases List.mem_cons.1 hx with rfl | hx
        · exact e
        · exact absurd (by simpa using ⟨x, hx, e⟩) hany
      simp [hr]

/-- The lowest rank of a log is some record's rank, unless it is above every severity. -/
theorem lowestRank_mem : ∀ xs : List FaultRecord, lowestRank xs < 3 → ∃ r ∈ xs, r.rank = lowestRank xs
  | [], h => by simp [lowestRank] at h
  | r :: rs, h => by
    rw [lowestRank] at h ⊢
    by_cases hle : r.rank ≤ lowestRank rs
    · exact ⟨r, List.mem_cons_self .., (Nat.min_eq_left hle).symm⟩
    · have hlt : lowestRank rs < r.rank := Nat.lt_of_not_le hle
      rw [Nat.min_eq_right (Nat.le_of_lt hlt)] at h ⊢
      obtain ⟨x, hx, e⟩ := lowestRank_mem rs h
      exact ⟨x, List.mem_cons_of_mem _ hx, e⟩

theorem rank_lt (c : Cause) : c.severity.rank < 3 := by cases c <;> decide

theorem enter_log_length (u : FaultUnit) (time : BitVec 32) (rep : Report) (h : u.log.length ≤ 8) :
    (u.enter time rep).log.length ≤ 8 := by
  unfold FaultUnit.enter
  split
  · rename_i hlt
    simp only [Config.logRecords] at hlt
    simp
    omega
  · split
    · rename_i _ hlow
      have hmem := lowestRank_mem u.log (lt_trans hlow (rank_lt _))
      have := removeNewest_length _ _ hmem
      simp
      omega
    · exact h

theorem queueNotice_kept (u : FaultUnit) (body : NoticeBody) : FaultsKept u (u.queueNotice body) := by
  unfold FaultUnit.queueNotice
  split
  · rename_i hlt
    refine ⟨rfl, id, id, fun _ => ?_⟩
    simp only [Config.noticePlaces] at hlt
    simp
    omega
  · exact ⟨rfl, id, id, id⟩

theorem enter_fields (u : FaultUnit) (time : BitVec 32) (rep : Report) :
    (u.enter time rep).routes = u.routes ∧ (u.enter time rep).notices = u.notices := by
  unfold FaultUnit.enter
  split
  · exact ⟨rfl, rfl⟩
  · split <;> exact ⟨rfl, rfl⟩

theorem take_kept (u : FaultUnit) (claimed : Bool) (time : BitVec 32) (rep : Report) :
    FaultsKept u (u.take claimed time rep) := by
  have h : FaultsKept u (u.enter time rep).driveAlert :=
    ⟨(enter_fields u time rep).1, fun _ => rfl, enter_log_length u time rep,
      fun hn => by simpa [FaultUnit.driveAlert, (enter_fields u time rep).2] using hn⟩
  unfold FaultUnit.take
  dsimp only
  split
  · exact h.trans (queueNotice_kept _ _)
  · exact h

/-- After a report ALERT_N follows the log whatever it did before. -/
theorem take_alert (u : FaultUnit) (claimed : Bool) (time : BitVec 32) (rep : Report) :
    (u.take claimed time rep).alert = (u.take claimed time rep).lineInLog := by
  unfold FaultUnit.take FaultUnit.queueNotice
  dsimp only
  split
  · split <;> rfl
  · rfl

theorem discardNotices_kept (u : FaultUnit) (n : Nat) : FaultsKept u (u.discardNotices n) :=
  ⟨rfl, id, id, fun h => by simp [FaultUnit.discardNotices]; omega⟩

/-! ### Reports -/

/-- As `Inner`, but reports may have been taken. -/
structure Kept (s t : State) : Prop where
  inner : Inner s { t with faults := s.faults }
  faults : FaultsKept s.faults t.faults

/-- The fault unit has no part in `Inner` but its equality. -/
theorem Inner.setFaults {s t : State} (h : Inner s t) (u : FaultUnit) :
    Inner { s with faults := u } { t with faults := u } :=
  ⟨h.pending, h.timebase, h.link, rfl, h.agents, h.windows, h.portRow, h.claim, h.strapped, h.confirmTimer, h.manager,
    h.locked, h.forfeit, h.opSome, h.reply, h.replyOp, h.areaRow, h.classRow, h.number, h.tags, h.drain, h.openLaw,
    h.cache, h.staging⟩

theorem Inner.kept {s t : State} (h : Inner s t) : Kept s t := by
  refine ⟨?_, by rw [h.faults]; exact FaultsKept.refl _⟩
  have : { t with faults := s.faults } = t := by rw [← h.faults]
  rw [this]; exact h

theorem Kept.refl (s : State) : Kept s s := (Inner.refl s).kept

theorem Kept.trans {s t u : State} (a : Kept s t) (b : Kept t u) : Kept s u :=
  ⟨a.inner.trans (b.inner.setFaults s.faults), a.faults.trans b.faults⟩

/-- The laws of the down link hold after an operation that reports. -/
theorem Kept.downLaw {s t : State} (a : Kept s t) (h : DownLaw s) : DownLaw t := a.inner.downLaw h

theorem Kept.alert {s t : State} (a : Kept s t) (h : AlertFollowsLog s) : AlertFollowsLog t := a.faults.alert h

theorem suspendLane_inner (l : Lane) (s : State) : Inner s (suspendLane l s) := by
  unfold suspendLane
  split
  · rename_i ha
    have ha : (s.lane l).session = .active := by simpa using ha
    refine inner_updLane s l _ ⟨rfl, List.Sublist.refl _, fun h => ?_⟩
    have hd : (s.lane l).drain = .none := by
      by_contra hne
      have := h.1.2 hne
      rw [ha] at this
      cases this
    exact ⟨⟨(fun e => by cases e), fun e => absurd hd e⟩, h.2⟩
  · exact Inner.refl s

theorem report_kept (rep : Report) (s : State) : Kept s (report rep s) := by
  unfold report
  have h : Kept s (s.withFaults fun u => u.take (s.mgmt.claim == .claimed) s.timebase rep) :=
    ⟨Inner.refl s, take_kept _ _ _ _⟩
  dsimp only
  split
  · exact h.trans (suspendLane_inner _ _).kept
  · exact h

theorem reportAll_kept (reps : List Report) (s : State) : Kept s (reportAll reps s) :=
  forEach_rel Kept Kept.refl (fun _ _ _ => Kept.trans) report report_kept reps s

/-- What a report leaves of every part of the state but the fault unit and the sessions. -/
theorem report_fields (rep : Report) (s : State) :
    (report rep s).pending = s.pending ∧ (report rep s).timebase = s.timebase ∧ (report rep s).link = s.link
      ∧ (report rep s).mgmt = s.mgmt ∧ (report rep s).agents = s.agents ∧ (report rep s).windows = s.windows
      ∧ (report rep s).portRow = s.portRow ∧ (report rep s).xlat = s.xlat ∧ (report rep s).areas = s.areas
      ∧ (report rep s).staging = s.staging ∧ (report rep s).classes = s.classes ∧ (report rep s).port = s.port
      ∧ (report rep s).freeCount = s.freeCount := by
  unfold report
  dsimp only
  split
  · unfold suspendLane
    split <;> exact ⟨rfl, rfl, rfl, rfl, rfl, rfl, rfl, rfl, rfl, rfl, rfl, rfl, rfl⟩
  · exact ⟨rfl, rfl, rfl, rfl, rfl, rfl, rfl, rfl, rfl, rfl, rfl, rfl, rfl⟩

/-- The fault unit after a report. -/
theorem report_faults (rep : Report) (s : State) :
    (report rep s).faults = s.faults.take (s.mgmt.claim == .claimed) s.timebase rep := by
  unfold report
  dsimp only
  split
  · unfold suspendLane
    split <;> rfl
  · rfl

/-- A report whose action asks for no lane leaves every lane. -/
theorem report_lanes_of_no_action {rep : Report} {s : State} (h : s.faults.suspends rep = none) :
    (report rep s).lanes = s.lanes := by
  unfold report
  rw [h]
  rfl

/-! ### Operations that report -/

theorem translateSlot_kept (l : Lane) (q : Slot) (s : State) : Kept s (translateSlot l q s) := by
  unfold translateSlot
  dsimp only
  refine Kept.trans (Inner.kept ?_) (reportAll_kept _ _)
  refine Inner.trans ?_ (takeIndexes_inner _)
  split
  · exact (lookPieces_inner l q s).trans (completeSlot_inner _ _ _ _)
  · exact (lookPieces_inner l q s).trans (queueIfDone_inner _ _ _)

theorem endTransaction_kept (i : MemId) (x : IdState) (owner : Owner) (o : Outcome) (txn : Transaction)
    (beats : List Beat) (s : State) : Kept s (endTransaction i x owner o txn beats s) := by
  unfold endTransaction
  exact (((inner_setId s i x).trans (handOutcome_inner _ _ _ _ _)).kept.trans (reportAll_kept _ _)).trans
    (restartProgress_inner _).kept

theorem memoryResponse_kept (i : MemId) (st : MemStatus) (beats : List Beat) (s : State) :
    Kept s (memoryResponse i st beats s) := by
  unfold memoryResponse
  split
  · exact endTransaction_kept _ _ _ _ _ _ s
  · exact ((inner_setId s i _).kept.trans (report_kept _ _)).trans (restartProgress_inner _).kept
  · exact report_kept _ s

theorem responseTimeout_kept (i : MemId) (s : State) : Kept s (responseTimeout i s) := by
  unfold responseTimeout
  split
  · exact endTransaction_kept _ _ _ _ _ _ s
  · exact Kept.refl s
  · exact Kept.refl s

theorem grantSlot_kept (l : Lane) (q : Slot) (p : MemoryPort) (ids : List MemId) (s : State) :
    Kept s (grantSlot l q p ids s) := by
  unfold grantSlot
  dsimp only
  refine Kept.trans (Inner.kept ?_) (reportAll_kept _ _)
  refine Inner.trans ?_ (chargeClass_inner _ _ _ _)
  refine Inner.trans ?_ (issuePieces_inner _ _ _ _)
  have h : Inner s ((s.withPort fun _ => p).updLane l fun r =>
      { r.updSlot q.tag fun q => { q with stage := .issued } with issued := r.issued + 1 }) := by
    refine (inner_withPort s fun _ => p).trans (inner_updLane _ l _ ⟨rfl, ?_, id⟩)
    exact (updSlot_kept ((s.withPort fun _ => p).lane l) q.tag (fun q => { q with stage := .issued }) fun _ => rfl).tags
  split
  · exact h.trans (reserveUnits_inner _ _ _ _)
  · exact h

theorem grantWalk_kept (w : WalkNo) (x : Walk) (ids : List MemId) (s : State) : Kept s (grantWalk w x ids s) := by
  unfold grantWalk
  split
  · split
    · exact ((inner_setWalk s w _).trans (inner_setId _ _ _)).kept
    · exact Kept.refl s
  · exact ((failWalk_inner w _ s).kept.trans (reportAll_kept _ _)).trans (restartProgress_inner _).kept

theorem leaveUngranted_inner (s : State) : Inner s (leaveUngranted s) := by
  unfold leaveUngranted
  split
  · exact inner_withPort s _
  · exact Inner.refl s

theorem grant_kept (want : List MemId) (s : State) : Kept s (grant want s) := by
  unfold grant
  split
  · split
    · exact grantWalk_kept _ _ _ s
    · exact Kept.refl s
  · split
    · split
      · split
        · exact grantSlot_kept _ _ _ _ s
        · exact (leaveUngranted_inner s).kept
      · exact Kept.refl s
    · exact Kept.refl s

end Sys2Proof.Machine
end

