-- ==== Sys2Proof/Laws/Management.lean ====
section
/-! SUPPORT. What the management engine does with a parcel at each step of R155: the lemmas a proof about an operation cites in
place of unfolding `takeMgmt`. -/

namespace Sys2Proof.Machine

theorem linkUp_iff (s : State) : s.linkUp = true ↔ s.link.state = .up := by simp [State.linkUp]

theorem restarting_iff (s : State) : s.restarting = false ↔ s.mgmt.stage = .none := by simp [State.restarting]

/-- A parcel that meets no pending claim of its own leaves the claim. -/
theorem abandonClaim_of_noClaimOf {s : State} {l : Lane} (h : s.noClaimOf l) : abandonClaim l s = s := by
  unfold abandonClaim
  split
  · rename_i hc
    exact absurd (by simpa using hc) h
  · rfl

/-- A parcel of the strapped lane ends a pending claim. -/
theorem abandonClaim_of_pending {s : State} {l : Lane} (hc : s.mgmt.claim = .pending) (hl : s.mgmt.strapped = l) :
    abandonClaim l s = s.claimEnded := by
  unfold abandonClaim
  rw [if_pos (by simp [hc, hl])]
  rfl

theorem noClaimOf_of_claim {s : State} (l : Lane) (h : s.mgmt.claim ≠ .pending) : s.noClaimOf l := fun hp => h hp.1

theorem handReply_eq (rq : MgmtRequest) (st : MgmtStatus) (kw : Word) (ws : List Word) (s : State) :
    handReply rq st kw ws s = s.replied rq.lane rq.tag rq.code st kw ws := rfl

theorem replyPlain_eq (rq : MgmtRequest) (st : MgmtStatus) (s : State) :
    replyPlain rq st s = s.replied rq.lane rq.tag rq.code st 0 [] := rfl

/-- An operation of the manager that passes every step of R155 is run (R161: with the forfeit flag cleared). -/
theorem takeMgmt_ready {rq : MgmtRequest} {run : State → State} {s : State} (h : s.ready rq.lane) :
    takeMgmt rq false run s = run s.taken := by
  obtain ⟨h1, h2, h3, h4, h5, h6⟩ := h
  have ha : abandonClaim rq.lane s = s := abandonClaim_of_noClaimOf (noClaimOf_of_claim _ (by simp [h3]))
  unfold takeMgmt
  simp only [ha, ite_self]
  simp [State.linkUp, State.restarting, h1, h2, h3, h4, h5, h6, State.taken, State.withMgmt]

/-- An operation that step 6 of R155 refuses is replied BAD_VALUE. -/
theorem takeMgmt_bad {rq : MgmtRequest} {run : State → State} {s : State} (h : s.ready rq.lane) :
    takeMgmt rq true run s = s.replied rq.lane rq.tag rq.code .badValue 0 [] := by
  obtain ⟨h1, h2, h3, h4, h5, h6⟩ := h
  have ha : abandonClaim rq.lane s = s := abandonClaim_of_noClaimOf (noClaimOf_of_claim _ (by simp [h3]))
  unfold takeMgmt
  simp only [ha, ite_self]
  simp [State.linkUp, State.restarting, h1, h2, h3, h4, h5, h6, replyPlain_eq]

/-- A load that its table's rule takes. -/
theorem settleLoad_none (rq : MgmtRequest) (load : State → State) (ws : List Word) (s : State) :
    settleLoad rq none load ws s = (load s).replied rq.lane rq.tag rq.code .done 0 ws := rfl

/-- A load that its table's rule refuses. -/
theorem settleLoad_some (rq : MgmtRequest) (st : MgmtStatus) (load : State → State) (ws : List Word) (s : State)
    (h : rq.code = 0x06) : settleLoad rq (some st) load ws s.taken = s.loadRefused rq.lane rq.tag st := by
  unfold settleLoad State.loadRefused
  by_cases hl : st = .locked
  · simp [hl, replyPlain_eq, h]
  · simp [hl, replyPlain_eq, h]

/-- Everything but the engine's own state is as it was. -/
@[simp] theorem taken_fields (s : State) :
    s.taken.faults = s.faults ∧ s.taken.lanes = s.lanes ∧ s.taken.link = s.link ∧ s.taken.windows = s.windows :=
  ⟨rfl, rfl, rfl, rfl⟩

@[simp] theorem taken_lane (s : State) (l : Lane) : s.taken.lane l = s.lane l := rfl
@[simp] theorem taken_agent (s : State) (l : Lane) : s.taken.agent l = s.agent l := rfl
@[simp] theorem taken_area (s : State) (a : Fin 16) : s.taken.area a = s.area a := rfl
@[simp] theorem taken_cls (s : State) (c : ClassNo) : s.taken.cls c = s.cls c := rfl
@[simp] theorem taken_walk (s : State) (w : WalkNo) : s.taken.walk w = s.walk w := rfl
@[simp] theorem replied_lane (s : State) (l k : Lane) (tag : Tag) (code : Byte) (st : MgmtStatus) (kw : Word)
    (ws : List Word) : (s.replied l tag code st kw ws).lane k = s.lane k := rfl

/-- The first case of a table: none of the earlier ones holds. -/
theorem firstCase_cons {α : Type} (b : Bool) (x : α) (cs : List (Bool × α)) :
    firstCase ((b, x) :: cs) = if b then some x else firstCase cs := rfl

@[simp] theorem firstCase_nil {α : Type} : firstCase ([] : List (Bool × α)) = none := rfl

/-- A state without RESTART in progress is left by the test of R171. -/
theorem restartProgress_of_none {s : State} (h : s.mgmt.stage = .none) : restartProgress s = s := by
  simp [restartProgress, restartMemory, h]

/-- A state without an operation in progress is left by the handing of final replies. -/
theorem settleOp_of_none {s : State} (h : s.mgmt.op = none) : settleOp s = s := by
  simp [settleOp, h]

end Sys2Proof.Machine
end

