-- ==== Sys2Proof/Laws/Slots.lean ====
section
/-! SUPPORT. What the shared operations do to a lane's list of slots: finding a slot after an update, and one lemma an operation that
gives the lane's record, the areas and the storage after it. -/

namespace Sys2Proof.Machine

/-! ### Finding a slot -/

theorem slot?_tag {r : LaneState} {tag : Tag} {q : Slot} (h : r.slot? tag = some q) : q.tag = tag := by
  have := List.find?_some h
  simpa using this

theorem slot?_mem {r : LaneState} {tag : Tag} {q : Slot} (h : r.slot? tag = some q) : q ∈ r.slots :=
  List.mem_of_find?_eq_some h

/-- Finding a slot looks at the list alone. -/
theorem slot?_congr {r p : LaneState} (h : r.slots = p.slots) (tag : Tag) : r.slot? tag = p.slot? tag := by
  unfold LaneState.slot?; rw [h]

theorem find?_map_upd (f : Slot → Slot) (hf : ∀ q, (f q).tag = q.tag) (tag x : Tag) : ∀ qs : List Slot,
    (qs.map fun q => if q.tag == tag then f q else q).find? (fun q => q.tag == x)
      = (qs.find? fun q => q.tag == x).map fun q => if q.tag == tag then f q else q
  | [] => rfl
  | q :: qs => by
    have ht : (if q.tag == tag then f q else q).tag = q.tag := by split <;> simp [hf]
    rw [List.map_cons, List.find?_cons, List.find?_cons, ht]
    split
    · rfl
    · exact find?_map_upd f hf tag x qs

/-- The updated slot, found under its own tag. -/
theorem slot?_updSlot_self (r : LaneState) (tag : Tag) (f : Slot → Slot) (hf : ∀ q, (f q).tag = q.tag) :
    (r.updSlot tag f).slot? tag = (r.slot? tag).map f := by
  unfold LaneState.slot? LaneState.updSlot
  rw [find?_map_upd f hf]
  cases h : r.slots.find? fun q => q.tag == tag with
  | none => rfl
  | some q =>
    have : q.tag = tag := slot?_tag h
    simp [this]

/-- A slot of another tag is left. -/
theorem slot?_updSlot_ne (r : LaneState) {tag x : Tag} (f : Slot → Slot) (hf : ∀ q, (f q).tag = q.tag) (h : x ≠ tag) :
    (r.updSlot tag f).slot? x = r.slot? x := by
  unfold LaneState.slot? LaneState.updSlot
  rw [find?_map_upd f hf]
  cases e : r.slots.find? fun q => q.tag == x with
  | none => rfl
  | some q =>
    have : q.tag = x := slot?_tag e
    simp [this, h]

/-- A slot of a fresh tag at the tail is found. -/
theorem slot?_append_self {r : LaneState} {q : Slot} (h : ∀ p ∈ r.slots, p.tag ≠ q.tag) :
    LaneState.slot? { r with slots := r.slots ++ [q] } q.tag = some q := by
  unfold LaneState.slot?
  rw [List.find?_append, List.find?_eq_none.2 (by simpa using h)]
  simp

/-- An update under a fresh tag changes the slot at the tail alone. -/
theorem map_upd_append {qs : List Slot} {q : Slot} (f : Slot → Slot) (h : ∀ p ∈ qs, p.tag ≠ q.tag) :
    ((qs ++ [q]).map fun p => if p.tag == q.tag then f p else p) = qs ++ [f q] := by
  rw [List.map_append]
  congr 1
  · conv_rhs => rw [← List.map_id qs]
    apply List.map_congr_left
    intro p hp
    simp [h p hp]
  · simp

/-! ### The shared operations -/

@[simp] theorem updSlot_lane_self (s : State) (l : Lane) (tag : Tag) (f : Slot → Slot) :
    (s.updSlot l tag f).lane l = (s.lane l).updSlot tag f := by simp [State.updSlot]

theorem updSlot_lane_ne (s : State) {l k : Lane} (tag : Tag) (f : Slot → Slot) (h : k ≠ l) :
    (s.updSlot l tag f).lane k = s.lane k := updLane_lane_ne s _ h

/-- `handAnswer` hands the head's answer when the head is COMPLETE and none is handed, and changes nothing else. -/
theorem handAnswer_eq (l : Lane) (s : State) :
    handAnswer l s = s.updLane l fun r =>
      { r with
        stream :=
          match r.slots.head? with
          | some q => if q.stage == .complete && !r.answerHanded then r.stream ++ [.answer q.tag] else r.stream
          | none => r.stream } := by
  have same : ∀ r, s.lane l = r → s = s.updLane l fun _ => r := by
    intro r hr
    simp only [State.updLane]
    have : s.lanes.set l r = s.lanes := by rw [← hr]; simp [State.lane]
    rw [this]
  unfold handAnswer
  cases h : (s.lane l).slots.head? with
  | none =>
    simp only
    conv_lhs => rw [same (s.lane l) rfl]
    simp only [State.updLane, h]
  | some q =>
    simp only
    by_cases hc : (q.stage == .complete && !(s.lane l).answerHanded) = true
    · rw [if_pos hc, handItem]
      simp only [State.updLane, h, hc, if_true]
    · rw [if_neg hc]
      conv_lhs => rw [same (s.lane l) rfl]
      simp only [State.updLane, h, hc]
      rfl

@[simp] theorem dropWaiters_lane (l : Lane) (tag : Tag) (s : State) (k : Lane) :
    (dropWaiters l tag s).lane k = s.lane k := rfl
@[simp] theorem dropWaiters_area (l : Lane) (tag : Tag) (s : State) (a : Fin 16) :
    (dropWaiters l tag s).area a = s.area a := rfl
@[simp] theorem dropWaiters_staging (l : Lane) (tag : Tag) (s : State) : (dropWaiters l tag s).staging = s.staging := rfl
@[simp] theorem dropWaiters_port (l : Lane) (tag : Tag) (s : State) : (dropWaiters l tag s).port = s.port := rfl
@[simp] theorem dropWaiters_classes (l : Lane) (tag : Tag) (s : State) : (dropWaiters l tag s).classes = s.classes := rfl
@[simp] theorem dropWaiters_agent (l : Lane) (tag : Tag) (s : State) (k : Lane) :
    (dropWaiters l tag s).agent k = s.agent k := rfl

/-- The credit fields that the grant rule leaves. -/
theorem grantRule_lane (l k : Lane) (s : State) :
    (grantRule l s).lane k =
      if k = l ∧ s.grantDue l = true then
        { s.lane l with
          credit := (s.lane l).credit + s.ungranted l
          creditWaiting := some ((s.lane l).creditWaiting.getD 0 + s.ungranted l) }
      else s.lane k := by
  unfold grantRule
  by_cases h : s.grantDue l = true
  · rw [if_pos h, updLane_lane]
    simp [h]
  · rw [if_neg h]
    simp [h]

/-- Fields that the grant rule leaves. -/
theorem grantRule_fields (l : Lane) (s : State) :
    (grantRule l s).areas = s.areas ∧ (grantRule l s).staging = s.staging ∧ (grantRule l s).port = s.port
      ∧ (grantRule l s).classes = s.classes ∧ (grantRule l s).xlat = s.xlat ∧ (grantRule l s).mgmt = s.mgmt
      ∧ (grantRule l s).freeCount = s.freeCount := by
  unfold grantRule
  split <;> exact ⟨rfl, rfl, rfl, rfl, rfl, rfl, rfl⟩

/-- The state before the grant rule when a slot gives back the units that `gone` picks (R93, R97). -/
def unitsReleased (l : Lane) (tag : Tag) (gone : HeldUnit → Bool) (q : Slot) (s : State) : State :=
  let out := q.held.filter gone
  let filled := (out.filter (·.filled)).length
  ((s.updSlot l tag fun q => { q with held := q.held.filter fun u => !gone u }).withStaging fun m =>
      (out.map (·.unit)).foldl Memory.dropUnit m).updArea (s.agent l).area fun a =>
    match q.dir with
    | .write => { a with writeOccupied := a.writeOccupied - out.length }
    | .read => { a with readReserved := a.readReserved - (out.length - filled), readFilled := a.readFilled - filled }

/-- A slot that is held gives back its units, and a WRITE's release calls for the grant rule. -/
theorem releaseUnits_eq {l : Lane} {tag : Tag} {q : Slot} {s : State} (gone : HeldUnit → Bool)
    (h : s.slot? l tag = some q) :
    releaseUnits l tag gone s =
      match q.dir with
      | .write => grantRule l (unitsReleased l tag gone q s)
      | .read => unitsReleased l tag gone q s := by
  unfold releaseUnits unitsReleased
  rw [h]
  cases hd : q.dir <;> simp only [hd]

/-- A READ's release is the release alone. -/
theorem releaseUnits_read {l : Lane} {tag : Tag} {q : Slot} {s : State} (gone : HeldUnit → Bool)
    (h : s.slot? l tag = some q) (hd : q.dir = .read) : releaseUnits l tag gone s = unitsReleased l tag gone q s := by
  rw [releaseUnits_eq gone h]
  simp only [hd]

/-- The lane's list after units are given back. -/
theorem unitsReleased_lane (l : Lane) (tag : Tag) (gone : HeldUnit → Bool) (q : Slot) (s : State) (k : Lane) :
    (unitsReleased l tag gone q s).lane k =
      if k = l then (s.lane l).updSlot tag fun q => { q with held := q.held.filter fun u => !gone u } else s.lane k := by
  by_cases h : k = l
  · subst h
    simp [unitsReleased]
  · rw [if_neg h]
    exact updSlot_lane_ne s tag _ h

/-! ### A slot becomes COMPLETE (R31 to R35) -/

/-- The slot as it is when it has become COMPLETE. -/
def Slot.completed (q : Slot) (dir : Dir) (st : RespStatus) : Slot :=
  { q with stage := .complete, status := some st, held := q.held.filter fun u => !givesBack dir st u }

/-- The state before units are given back and the answer is handed. -/
def stageComplete (l : Lane) (tag : Tag) (st : RespStatus) (q : Slot) (s : State) : State :=
  dropWaiters l tag
    (s.updLane l fun r => (r.leaveIssued q).updSlot tag fun q => { q with stage := .complete, status := some st })

theorem leaveIssued_slots (r : LaneState) (q : Slot) : (r.leaveIssued q).slots = r.slots := by
  unfold LaneState.leaveIssued; split <;> rfl

theorem leaveIssued_issued (r : LaneState) (q : Slot) :
    (r.leaveIssued q).issued = if q.stage = .issued then r.issued - 1 else r.issued := by
  unfold LaneState.leaveIssued
  by_cases h : q.stage = .issued <;> simp [h]

theorem leaveIssued_eq (r : LaneState) (q : Slot) : r.leaveIssued q = { r with issued := (r.leaveIssued q).issued } := by
  unfold LaneState.leaveIssued; split <;> rfl

theorem completeSlot_eq {l : Lane} {tag : Tag} {q : Slot} {s : State} (st : RespStatus) (h : s.slot? l tag = some q) :
    completeSlot l tag st s =
      handAnswer l (releaseUnits l tag (givesBack q.dir st) (stageComplete l tag st q s)) := by
  unfold completeSlot stageComplete
  rw [h]

theorem stageComplete_slot {l : Lane} {tag : Tag} {q : Slot} {s : State} (st : RespStatus)
    (h : s.slot? l tag = some q) :
    (stageComplete l tag st q s).slot? l tag = some { q with stage := .complete, status := some st } := by
  unfold State.slot? stageComplete
  unfold State.slot? at h
  rw [dropWaiters_lane, updLane_lane_self]
  refine (slot?_updSlot_self _ tag (fun q : Slot => { q with stage := .complete, status := some st }) fun _ => rfl).trans ?_
  rw [slot?_congr (leaveIssued_slots _ _) tag, h]
  rfl

/-- The lane's record before the grant rule and the handing of the answer. -/
theorem released_lane {l : Lane} {tag : Tag} {q : Slot} {s : State} (st : RespStatus) :
    (unitsReleased l tag (givesBack q.dir st) { q with stage := .complete, status := some st }
        (stageComplete l tag st q s)).lane l =
      { s.lane l with
        issued := if q.stage = .issued then (s.lane l).issued - 1 else (s.lane l).issued
        slots := (s.lane l).slots.map fun p => if p.tag == tag then p.completed q.dir st else p } := by
  rw [unitsReleased_lane, if_pos rfl, stageComplete, dropWaiters_lane, updLane_lane_self, leaveIssued_eq]
  rw [leaveIssued_issued]
  simp only [LaneState.updSlot, List.map_map]
  congr 1
  apply List.map_congr_left
  intro p _
  simp only [Function.comp]
  by_cases hp : p.tag == tag <;> simp [hp, Slot.completed]

/-- The lane's list after its slot has become COMPLETE, and the fields of its record that this leaves. -/
theorem completeSlot_lane {l : Lane} {tag : Tag} {q : Slot} {s : State} (st : RespStatus) (h : s.slot? l tag = some q) :
    let r := (completeSlot l tag st s).lane l
    r.slots = ((s.lane l).slots.map fun p => if p.tag == tag then p.completed q.dir st else p)
      ∧ r.session = (s.lane l).session ∧ r.drain = (s.lane l).drain ∧ r.number = (s.lane l).number
      ∧ r.closingOwed = (s.lane l).closingOwed ∧ r.joinReplySent = (s.lane l).joinReplySent
      ∧ r.issued = (if q.stage = .issued then (s.lane l).issued - 1 else (s.lane l).issued)
      ∧ r.stream = match r.slots.head? with
        | some p => if p.stage == .complete && !(s.lane l).answerHanded then (s.lane l).stream ++ [.answer p.tag]
          else (s.lane l).stream
        | none => (s.lane l).stream := by
  rw [completeSlot_eq st h, handAnswer_eq, updLane_lane_self, releaseUnits_eq _ (stageComplete_slot st h)]
  cases hd : q.dir with
  | read =>
    rw [← hd]
    simp only [hd]
    rw [← hd, released_lane]
    exact ⟨rfl, rfl, rfl, rfl, rfl, rfl, rfl, rfl⟩
  | write =>
    simp only []
    rw [grantRule_lane]
    split
    · rw [← hd, released_lane]
      exact ⟨rfl, rfl, rfl, rfl, rfl, rfl, rfl, rfl⟩
    · rw [← hd, released_lane]
      exact ⟨rfl, rfl, rfl, rfl, rfl, rfl, rfl, rfl⟩

/-- Units that a slot gives back when it becomes COMPLETE with a status. -/
def Slot.givenBack (q : Slot) (st : RespStatus) : List HeldUnit := q.held.filter (givesBack q.dir st)

/-- The area counts after units are given back (R93, R97). -/
def Area.release (a : Area) (dir : Dir) (out : List HeldUnit) : Area :=
  match dir with
  | .write => { a with writeOccupied := a.writeOccupied - out.length }
  | .read =>
    { a with
      readReserved := a.readReserved - (out.length - (out.filter (·.filled)).length)
      readFilled := a.readFilled - (out.filter (·.filled)).length }

theorem unitsReleased_area (l : Lane) (tag : Tag) (gone : HeldUnit → Bool) (q : Slot) (s : State) (a : Fin 16) :
    (unitsReleased l tag gone q s).area a =
      if a = (s.agent l).area then (s.area a).release q.dir (q.held.filter gone) else s.area a := by
  unfold unitsReleased
  dsimp only
  rw [updArea_area]
  split
  · rename_i h
    subst h
    cases q.dir <;> rfl
  · rfl

/-- Fields that giving units back leaves. -/
theorem unitsReleased_fields (l : Lane) (tag : Tag) (gone : HeldUnit → Bool) (q : Slot) (s : State) :
    let t := unitsReleased l tag gone q s
    t.port = s.port ∧ t.classes = s.classes ∧ t.mgmt = s.mgmt ∧ t.xlat = s.xlat ∧ t.link = s.link
      ∧ t.freeCount = s.freeCount ∧ t.agents = s.agents
      ∧ t.staging = ((q.held.filter gone).map (·.unit)).foldl Memory.dropUnit s.staging :=
  ⟨rfl, rfl, rfl, rfl, rfl, rfl, rfl, rfl⟩

@[simp] theorem handAnswer_area (l : Lane) (s : State) (a : Fin 16) : (handAnswer l s).area a = s.area a := by
  rw [handAnswer_eq]; rfl
@[simp] theorem handAnswer_port (l : Lane) (s : State) : (handAnswer l s).port = s.port := by rw [handAnswer_eq]; rfl
@[simp] theorem handAnswer_classes (l : Lane) (s : State) : (handAnswer l s).classes = s.classes := by
  rw [handAnswer_eq]; rfl
@[simp] theorem handAnswer_mgmt (l : Lane) (s : State) : (handAnswer l s).mgmt = s.mgmt := by rw [handAnswer_eq]; rfl
@[simp] theorem handAnswer_xlat (l : Lane) (s : State) : (handAnswer l s).xlat = s.xlat := by rw [handAnswer_eq]; rfl
@[simp] theorem handAnswer_staging (l : Lane) (s : State) : (handAnswer l s).staging = s.staging := by
  rw [handAnswer_eq]; rfl
@[simp] theorem handAnswer_agent (l : Lane) (s : State) (k : Lane) : (handAnswer l s).agent k = s.agent k := by
  rw [handAnswer_eq]; rfl
@[simp] theorem handAnswer_freeCount (l : Lane) (s : State) : (handAnswer l s).freeCount = s.freeCount := by
  rw [handAnswer_eq]; rfl

theorem handAnswer_lane_ne {l k : Lane} (s : State) (h : k ≠ l) : (handAnswer l s).lane k = s.lane k := by
  rw [handAnswer_eq]; exact updLane_lane_ne s _ h

/-- The state in which the slot is COMPLETE and has given back its units. -/
def completeReleased (l : Lane) (tag : Tag) (st : RespStatus) (q : Slot) (s : State) : State :=
  unitsReleased l tag (givesBack q.dir st) { q with stage := .complete, status := some st } (stageComplete l tag st q s)

theorem completeSlot_of_read {l : Lane} {tag : Tag} {q : Slot} {s : State} (st : RespStatus)
    (h : s.slot? l tag = some q) (hd : q.dir = .read) :
    completeSlot l tag st s = handAnswer l (completeReleased l tag st q s) := by
  rw [completeSlot_eq st h, releaseUnits_eq _ (stageComplete_slot st h)]
  split
  · rename_i e
    have e : q.dir = .write := e
    rw [hd] at e
    cases e
  · rfl

theorem completeSlot_of_write {l : Lane} {tag : Tag} {q : Slot} {s : State} (st : RespStatus)
    (h : s.slot? l tag = some q) (hd : q.dir = .write) :
    completeSlot l tag st s = handAnswer l (grantRule l (completeReleased l tag st q s)) := by
  rw [completeSlot_eq st h, releaseUnits_eq _ (stageComplete_slot st h)]
  split
  · rfl
  · rename_i e
    have e : q.dir = .read := e
    rw [hd] at e
    cases e

theorem completeReleased_lane_ne {l : Lane} (tag : Tag) (st : RespStatus) (q : Slot) (s : State) {k : Lane} (hk : k ≠ l) :
    (completeReleased l tag st q s).lane k = s.lane k := by
  unfold completeReleased
  rw [unitsReleased_lane, if_neg hk, stageComplete, dropWaiters_lane]
  exact updLane_lane_ne s _ hk

theorem completeReleased_area (l : Lane) (tag : Tag) (st : RespStatus) (q : Slot) (s : State) (a : Fin 16) :
    (completeReleased l tag st q s).area a =
      if a = (s.agent l).area then (s.area a).release q.dir (q.givenBack st) else s.area a := by
  unfold completeReleased
  exact unitsReleased_area l tag _ _ _ a

/-- What a slot's becoming COMPLETE does outside its lane's record. -/
theorem completeSlot_rest {l : Lane} {tag : Tag} {q : Slot} {s : State} (st : RespStatus) (h : s.slot? l tag = some q) :
    let t := completeSlot l tag st s
    (∀ k, k ≠ l → t.lane k = s.lane k)
      ∧ (∀ a, t.area a = if a = (s.agent l).area then (s.area a).release q.dir (q.givenBack st) else s.area a)
      ∧ t.port = s.port ∧ t.classes = s.classes ∧ t.mgmt = s.mgmt ∧ t.xlat = (dropWaiters l tag s).xlat
      ∧ t.staging = ((q.givenBack st).map (·.unit)).foldl Memory.dropUnit s.staging
      ∧ t.freeCount = s.freeCount := by
  intro t
  have fields := unitsReleased_fields l tag (givesBack q.dir st) { q with stage := .complete, status := some st }
    (stageComplete l tag st q s)
  cases hd : q.dir with
  | read =>
    have et : t = handAnswer l (completeReleased l tag st q s) := completeSlot_of_read st h hd
    rw [et]
    refine ⟨fun k hk => (handAnswer_lane_ne _ hk).trans (completeReleased_lane_ne tag st q s hk), fun a => ?_, ?_⟩
    · rw [handAnswer_area, completeReleased_area, hd]
    · simp only [handAnswer_port, handAnswer_classes, handAnswer_mgmt, handAnswer_xlat, handAnswer_staging,
        handAnswer_freeCount]
      exact ⟨rfl, rfl, rfl, rfl, rfl, rfl⟩
  | write =>
    have et : t = handAnswer l (grantRule l (completeReleased l tag st q s)) := completeSlot_of_write st h hd
    have gf := grantRule_fields l (completeReleased l tag st q s)
    rw [et]
    refine ⟨fun k hk => (handAnswer_lane_ne _ hk).trans ?_, fun a => ?_, ?_⟩
    · rw [grantRule_lane, if_neg (fun hh => hk hh.1)]
      exact completeReleased_lane_ne tag st q s hk
    · rw [handAnswer_area, State.area, gf.1, ← hd]
      exact completeReleased_area l tag st q s a
    · simp only [handAnswer_port, handAnswer_classes, handAnswer_mgmt, handAnswer_xlat, handAnswer_staging,
        handAnswer_freeCount, gf]
      exact ⟨rfl, rfl, rfl, rfl, rfl, rfl⟩

/-- The credit of a lane whose slot has become COMPLETE: a READ's is left, a WRITE's release calls for the grant rule. -/
theorem completeSlot_credit {l : Lane} {tag : Tag} {q : Slot} {s : State} (st : RespStatus)
    (h : s.slot? l tag = some q) :
    let r := s.lane l
    let a := (s.area (s.agent l).area).release q.dir (q.givenBack st)
    let free := a.row.writeUnits - (a.writeOccupied + r.credit)
    let due := r.session = .active ∧ 0 < free
      ∧ ((s.agent l).quantum ≤ free ∨ (a.writeOccupied = 0 ∧ r.credit = 0))
    let p := (completeSlot l tag st s).lane l
    (q.dir = .write → due →
        p.credit = r.credit + free ∧ p.creditWaiting = some (r.creditWaiting.getD 0 + free))
      ∧ (q.dir = .read ∨ ¬due → p.credit = r.credit ∧ p.creditWaiting = r.creditWaiting) := by
  intro r a free due p
  let u := completeReleased l tag st q s
  have hl : u.lane l =
      { s.lane l with
        issued := if q.stage = .issued then (s.lane l).issued - 1 else (s.lane l).issued
        slots := (s.lane l).slots.map fun p => if p.tag == tag then p.completed q.dir st else p } := released_lane st
  have ha : u.laneArea l = a := by
    show u.area (s.agent l).area = a
    rw [completeReleased_area, if_pos rfl]
  have hc : ∀ v : State, ((handAnswer l v).lane l).credit = (v.lane l).credit
      ∧ ((handAnswer l v).lane l).creditWaiting = (v.lane l).creditWaiting := by
    intro v
    rw [handAnswer_eq, updLane_lane_self]
    exact ⟨rfl, rfl⟩
  cases hd : q.dir with
  | read =>
    refine ⟨(fun h => by cases h), fun _ => ?_⟩
    have et : p = (handAnswer l u).lane l := congrArg (fun s => s.lane l) (completeSlot_of_read st h hd)
    rw [et, (hc u).1, (hc u).2, hl]
    exact ⟨rfl, rfl⟩
  | write =>
    have et : p = (handAnswer l (grantRule l u)).lane l := congrArg (fun s => s.lane l) (completeSlot_of_write st h hd)
    have hun : u.ungranted l = free := by
      show (u.laneArea l).row.writeUnits - ((u.laneArea l).writeOccupied + (u.lane l).credit) = free
      rw [ha, hl]
    have hdue : u.grantDue l = true ↔ due := by
      have h1 : (u.lane l).session = r.session := by rw [hl]
      have h2 : (u.lane l).credit = r.credit := by rw [hl]
      have h4 : u.agent l = s.agent l := rfl
      simp only [State.grantDue, ha, h1, h2, hun, h4, due, Bool.and_eq_true, Bool.or_eq_true, beq_iff_eq,
        decide_eq_true_eq, and_assoc]
    refine ⟨fun _ hh => ?_, fun hh => ?_⟩
    · rw [et, (hc _).1, (hc _).2, grantRule_lane, if_pos ⟨rfl, hdue.2 hh⟩, hun, hl]
      exact ⟨rfl, rfl⟩
    · have hn : ¬due := hh.resolve_left (by simp)
      rw [et, (hc _).1, (hc _).2, grantRule_lane, if_neg (fun x => hn (hdue.1 x.2)), hl]
      exact ⟨rfl, rfl⟩

end Sys2Proof.Machine
end

