-- ==== Sys2Proof/Laws/Accounts.lean ====
section
/-! SUPPORT. The small lemmas of the words in which accounts are stated: units held, areas without slots, bytes placed and dropped,
a fault record's layout, the next index of a walk slot; of a choice without a grant; and what closing a drain does to the lanes. -/

namespace Sys2Proof.Machine

@[simp] theorem unitsHeld_nil (dir : Dir) (p : HeldUnit → Bool) : unitsHeld dir p [] = 0 := rfl

theorem unitsHeld_cons (dir : Dir) (p : HeldUnit → Bool) (q : Slot) (qs : List Slot) :
    unitsHeld dir p (q :: qs) = (if q.dir = dir then (q.held.filter p).length else 0) + unitsHeld dir p qs := by
  unfold unitsHeld
  by_cases h : q.dir = dir <;> simp [h]

theorem unitsHeld_append (dir : Dir) (p : HeldUnit → Bool) (xs ys : List Slot) :
    unitsHeld dir p (xs ++ ys) = unitsHeld dir p xs + unitsHeld dir p ys := by
  simp [unitsHeld]

theorem area_without_nil (a : Area) : a.without [] = a := rfl

/-- Slots that leave one after another leave together. -/
theorem area_without_append (a : Area) (xs ys : List Slot) : a.without (xs ++ ys) = (a.without xs).without ys := by
  simp [Area.without, unitsHeld_append, Nat.sub_sub]

theorem area_without_row (a : Area) (gone : List Slot) : (a.without gone).row = a.row := rfl

/-- Nothing is dropped with no unit. -/
theorem dropped_nil (m : Memory) : Memory.dropped m m [] := fun y => by simp

/-- Units dropped one list after another are dropped together. -/
theorem dropped_append {m n k : Memory} {us vs : List Nat} (h : Memory.dropped m n us) (g : Memory.dropped n k vs) :
    Memory.dropped m k (us ++ vs) := by
  intro y
  rw [g y, h y]
  by_cases a : y / 64 ∈ us <;> by_cases b : y / 64 ∈ vs <;> simp [a, b]

/-- A record travels as its layout (R183). -/
theorem record_words_layout (f : FaultRecord) : f.words = f.layout := by
  obtain ⟨seq, time, ⟨cause, lane, tag, cls, link, mem⟩⟩ := f
  cases lane <;> cases tag <;> cases cls <;> cases link <;> rfl

/-- A SESSION RESET waits on the lane, or none does (R16). -/
theorem resetWaits_eq_false {s : State} {l : Lane} : s.resetWaits l = false ↔ s.notAwaited l := by
  unfold State.resetWaits State.notAwaited
  cases s.mgmt.op with
  | none => simp
  | some o => simp

/-- Outside RESTART its law holds. -/
theorem restartLaw_of_stage_none {s : State} (h : s.mgmt.stage = .none) : RestartLaw s :=
  ⟨fun g => (g h).elim, fun g => (by rw [h] at g; cases g), fun g => (by rw [h] at g; cases g)⟩

/-- No operation in progress, no SESSION RESET that waits. -/
theorem resetLaw_of_op_none {s : State} (h : s.mgmt.op = none) : ResetLaw s := fun _ _ _ g => by
  rw [h] at g
  cases g

/-! ### What ends an operation leaves the lanes -/

@[simp] theorem settleOp_lane (s : State) (k : Lane) : (settleOp s).lane k = s.lane k := by
  unfold settleOp
  repeat' split
  all_goals rfl

@[simp] theorem endOp_lane (s : State) (k : Lane) : (endOp s).lane k = s.lane k := settleOp_lane _ k

@[simp] theorem restartMemory_lane (s : State) (k : Lane) : (restartMemory s).lane k = s.lane k := by
  unfold restartMemory
  split
  · exact endOp_lane _ k
  · rfl

@[simp] theorem restartProgress_lane (s : State) (k : Lane) : (restartProgress s).lane k = s.lane k := by
  unfold restartProgress
  split <;> simp

/-- Entry to DETACHED changes the lane's record as R12 and R18 say. -/
theorem enterDetached_lane_self (l : Lane) (s : State) : (enterDetached l s).lane l = (s.lane l).detach := by
  unfold enterDetached
  dsimp only
  split <;> simp

theorem enterDetached_lane_ne {l k : Lane} (s : State) (h : k ≠ l) : (enterDetached l s).lane k = s.lane k := by
  unfold enterDetached
  dsimp only
  split <;> simp only [restartProgress_lane, endOp_lane] <;> exact updLane_lane_ne s _ h

/-- After a drain has closed or not, its lane is not DRAINING with an empty list, and no other lane changes (R12, R18, R23). -/
theorem closeDrain_lanes (l : Lane) (s : State) :
    (((closeDrain l s).lane l).session = .draining → ((closeDrain l s).lane l).slots ≠ [])
      ∧ ∀ k, k ≠ l → (closeDrain l s).lane k = s.lane k := by
  unfold closeDrain
  split
  · refine ⟨fun h => ?_, fun k hk => enterDetached_lane_ne s hk⟩
    rw [enterDetached_lane_self] at h
    cases h
  · rename_i open_
    exact ⟨fun h e => open_ (by simp [h, e]), fun _ _ => rfl⟩

/-- What closes its drain keeps the law of the lanes that drain, whatever the lane held before. -/
theorem closeDrain_drainingLaw {l : Lane} {s : State}
    (h : ∀ k, k ≠ l → (s.lane k).session = .draining → (s.lane k).slots ≠ []) : DrainingLaw (closeDrain l s) := by
  intro k
  by_cases e : k = l
  · subst e
    exact (closeDrain_lanes k s).1
  · rw [(closeDrain_lanes l s).2 k e]
    exact h k e

/-- No WRITE gives units back: the lane's credit stays. -/
theorem creditAfter_of_no_write {s : State} {l : Lane} {gone : List Slot} (h : ∀ q ∈ gone, q.dir = .read) :
    s.creditAfter l gone = ((s.lane l).credit, (s.lane l).creditWaiting) := by
  have none_ : (gone.filter fun q => q.dir == .write) = [] := by
    rw [List.filter_eq_nil_iff]
    intro q m
    rw [h q m]
    decide
  unfold State.creditAfter
  simp only [none_, List.foldl_nil]

/-- A choice without a grant keeps the run of an URGENT choice, and of a choice from the run (R128, R132). -/
theorem leaveUngranted_of_kept {s : State} (h : s.urgentChoice.isSome ∨ s.runChoice.isSome) : leaveUngranted s = s := by
  refine if_neg fun g => ?_
  rw [Bool.and_eq_true, Option.isNone_iff_eq_none, Option.isNone_iff_eq_none] at g
  rcases h with h | h
  · rw [g.1] at h
    cases h
  · rw [g.2] at h
    cases h

/-- A choice without a grant ends the run it does not choose from (R132, R135). -/
theorem leaveUngranted_of_ended {s : State} (h : s.urgentChoice = none) (g : s.runChoice = none) :
    leaveUngranted s = { s with port := { s.port with run := none } } := by
  simp [leaveUngranted, h, g, State.withPort]

/-- With an empty waiting list the walk slot stays FREE. -/
theorem nextIndex_nil {x : Translation} (w : WalkNo) (h : x.waiting = []) :
    x.nextIndex w = { x with walks := x.walks.set w none } := by
  simp [Translation.nextIndex, h]

/-- The cache is left by the next index. -/
@[simp] theorem nextIndex_cache (x : Translation) (w : WalkNo) : (x.nextIndex w).cache = x.cache := by
  unfold Translation.nextIndex; split <;> rfl

end Sys2Proof.Machine
end

