-- ==== Sys2Proof/Laws/PerInstr.lean ====
section
/-! SUPPORT. The family ParcelForm, one lemma a command: the parcel of a well-formed command passes check 2 of R175 (its payload
length suits its kind, and its tag byte is at most 15). -/

namespace Sys2Proof

theorem bytesOfWords_length (ws : List Word) : (bytesOfWords ws).length = 4 * ws.length := by
  induction ws with
  | nil => rfl
  | cons w ws ih =>
    show (bytesOf32 w ++ bytesOfWords ws).length = _
    rw [List.length_append, ih, List.length_cons]
    show 4 + _ = _
    omega

theorem tagByte_le (tag : Tag) : (tag.setWidth 8).toNat ≤ 15 := by
  rw [BitVec.toNat_setWidth]
  have := tag.isLt
  omega

/-- The MGMT parcel of at most 64 payload words (R180). -/
theorem mgmtParcel_suits (lane : Byte) (tag : Tag) (code : Byte) (ws : List Word) (h : ws.length ≤ 64) :
    payloadSuits (mgmtParcel lane tag code ws).kind (mgmtParcel lane tag code ws).payload.length = true
      ∧ (mgmtParcel lane tag code ws).tag.toNat ≤ 15 := by
  refine ⟨?_, tagByte_le tag⟩
  show payloadSuits 0x05 (bytesOfWords ws).length = true
  rw [bytesOfWords_length]
  simp [payloadSuits]
  omega

/-- Check 2 of R175 on a parcel. -/
def Laws.ParcelForm.Statement (i : Instr) : Prop :=
  i.wellFormed = true → ∀ p, instrParcel i = some p → payloadSuits p.kind p.payload.length = true ∧ p.tag.toNat ≤ 15

namespace Laws.ParcelForm

theorem lineReset (straps : BitVec 4) : Statement (.lineReset straps) := by
  intro _ p h
  cases h

theorem signalPresent : Statement .signalPresent := by
  intro _ p h
  cases h

theorem goodMarker : Statement .goodMarker := by
  intro _ p h
  cases h

theorem damagedMarker : Statement .damagedMarker := by
  intro _ p h
  cases h

theorem lossOfSignal : Statement .lossOfSignal := by
  intro _ p h
  cases h

theorem parcelDropped (frame : Frame) : Statement (.parcelDropped frame) := by
  intro _ p h
  cases h

theorem join (lane : Byte) (tag : Tag) (identifier : BitVec 64) : Statement (.join lane tag identifier) := by
  intro _ p h
  cases h
  exact ⟨rfl, tagByte_le tag⟩

theorem leave (lane : Byte) (tag : Tag) (number : Byte) : Statement (.leave lane tag number) := by
  intro _ p h
  cases h
  exact ⟨rfl, tagByte_le tag⟩

theorem read (lane : Byte) (tag : Tag) (number : Byte) (address : BitVec 32) (length : BitVec 16) :
    Statement (.read lane tag number address length) := by
  intro _ p h
  cases h
  exact ⟨rfl, tagByte_le tag⟩

theorem write (lane : Byte) (tag : Tag) (number : Byte) (address : BitVec 32) (length : BitVec 16) (data : List Byte) :
    Statement (.write lane tag number address length data) := by
  intro hw p h
  cases h
  refine ⟨?_, tagByte_le tag⟩
  have : data.length ≤ 256 := by simpa [Instr.wellFormed] using hw
  show payloadSuits 0x04 data.length = true
  simp [payloadSuits, this]

theorem claim (lane : Byte) (tag : Tag) : Statement (.claim lane tag) := by
  intro _ p h
  cases h
  exact mgmtParcel_suits _ _ _ _ (by simp)

theorem confirm (lane : Byte) (tag : Tag) : Statement (.confirm lane tag) := by
  intro _ p h
  cases h
  exact mgmtParcel_suits _ _ _ _ (by simp)

theorem confirmTimerExpiry : Statement .confirmTimerExpiry := by
  intro _ p h
  cases h

theorem release (lane : Byte) (tag : Tag) : Statement (.release lane tag) := by
  intro _ p h
  cases h
  exact mgmtParcel_suits _ _ _ _ (by simp)

theorem handover (lane : Byte) (tag : Tag) (payload : List Word) : Statement (.handover lane tag payload) := by
  intro hw p h
  cases h
  exact mgmtParcel_suits _ _ _ _ (by simpa [Instr.wellFormed, payloadFits] using hw)

theorem readRow (lane : Byte) (tag : Tag) (payload : List Word) : Statement (.readRow lane tag payload) := by
  intro hw p h
  cases h
  exact mgmtParcel_suits _ _ _ _ (by simpa [Instr.wellFormed, payloadFits] using hw)

theorem loadRow (lane : Byte) (tag : Tag) (payload : List Word) : Statement (.loadRow lane tag payload) := by
  intro hw p h
  cases h
  refine mgmtParcel_suits _ _ _ _ ?_
  simp [Instr.wellFormed, payloadFits] at hw
  omega

theorem loadRowPort (lane : Byte) (tag : Tag) (row : Word) (words : List Word) :
    Statement (.loadRowPort lane tag row words) := by
  intro hw p h
  cases h
  refine mgmtParcel_suits _ _ _ _ ?_
  simp [Instr.wellFormed, rowFits] at hw
  simp
  omega

theorem loadRowAgents (lane : Byte) (tag : Tag) (row : Word) (words : List Word) :
    Statement (.loadRowAgents lane tag row words) := by
  intro hw p h
  cases h
  refine mgmtParcel_suits _ _ _ _ ?_
  simp [Instr.wellFormed, rowFits] at hw
  simp
  omega

theorem loadRowWindows (lane : Byte) (tag : Tag) (row : Word) (words : List Word) :
    Statement (.loadRowWindows lane tag row words) := by
  intro hw p h
  cases h
  refine mgmtParcel_suits _ _ _ _ ?_
  simp [Instr.wellFormed, rowFits] at hw
  simp
  omega

theorem loadRowAreas (lane : Byte) (tag : Tag) (row : Word) (words : List Word) :
    Statement (.loadRowAreas lane tag row words) := by
  intro hw p h
  cases h
  refine mgmtParcel_suits _ _ _ _ ?_
  simp [Instr.wellFormed, rowFits] at hw
  simp
  omega

theorem loadRowClasses (lane : Byte) (tag : Tag) (row : Word) (words : List Word) :
    Statement (.loadRowClasses lane tag row words) := by
  intro hw p h
  cases h
  refine mgmtParcel_suits _ _ _ _ ?_
  simp [Instr.wellFormed, rowFits] at hw
  simp
  omega

theorem loadRowRoutes (lane : Byte) (tag : Tag) (row : Word) (words : List Word) :
    Statement (.loadRowRoutes lane tag row words) := by
  intro hw p h
  cases h
  refine mgmtParcel_suits _ _ _ _ ?_
  simp [Instr.wellFormed, rowFits] at hw
  simp
  omega

theorem commit (lane : Byte) (tag : Tag) : Statement (.commit lane tag) := by
  intro _ p h
  cases h
  exact mgmtParcel_suits _ _ _ _ (by simp)

theorem invalidate (lane : Byte) (tag : Tag) (payload : List Word) : Statement (.invalidate lane tag payload) := by
  intro hw p h
  cases h
  exact mgmtParcel_suits _ _ _ _ (by simpa [Instr.wellFormed, payloadFits] using hw)

theorem sessionSuspend (lane : Byte) (tag : Tag) (payload : List Word) :
    Statement (.sessionSuspend lane tag payload) := by
  intro hw p h
  cases h
  refine mgmtParcel_suits _ _ _ _ ?_
  simp [Instr.wellFormed, payloadFits] at hw
  omega

theorem sessionResume (lane : Byte) (tag : Tag) (payload : List Word) :
    Statement (.sessionResume lane tag payload) := by
  intro hw p h
  cases h
  refine mgmtParcel_suits _ _ _ _ ?_
  simp [Instr.wellFormed, payloadFits] at hw
  omega

theorem sessionReset (lane : Byte) (tag : Tag) (payload : List Word) :
    Statement (.sessionReset lane tag payload) := by
  intro hw p h
  cases h
  refine mgmtParcel_suits _ _ _ _ ?_
  simp [Instr.wellFormed, payloadFits] at hw
  omega

theorem throttleStart (lane : Byte) (tag : Tag) (payload : List Word) :
    Statement (.throttleStart lane tag payload) := by
  intro hw p h
  cases h
  refine mgmtParcel_suits _ _ _ _ ?_
  simp [Instr.wellFormed, payloadFits] at hw
  omega

theorem throttleRelease (lane : Byte) (tag : Tag) (payload : List Word) :
    Statement (.throttleRelease lane tag payload) := by
  intro hw p h
  cases h
  refine mgmtParcel_suits _ _ _ _ ?_
  simp [Instr.wellFormed, payloadFits] at hw
  omega

theorem readFaults (lane : Byte) (tag : Tag) (payload : List Word) : Statement (.readFaults lane tag payload) := by
  intro hw p h
  cases h
  exact mgmtParcel_suits _ _ _ _ (by simpa [Instr.wellFormed, payloadFits] using hw)

theorem clearFaults (lane : Byte) (tag : Tag) (payload : List Word) : Statement (.clearFaults lane tag payload) := by
  intro hw p h
  cases h
  exact mgmtParcel_suits _ _ _ _ (by simpa [Instr.wellFormed, payloadFits] using hw)

theorem lock (lane : Byte) (tag : Tag) : Statement (.lock lane tag) := by
  intro _ p h
  cases h
  exact mgmtParcel_suits _ _ _ _ (by simp)

theorem restart (lane : Byte) (tag : Tag) : Statement (.restart lane tag) := by
  intro _ p h
  cases h
  exact mgmtParcel_suits _ _ _ _ (by simp)

theorem status (lane : Byte) (tag : Tag) : Statement (.status lane tag) := by
  intro _ p h
  cases h
  exact mgmtParcel_suits _ _ _ _ (by simp)

theorem unknownOperation (lane : Byte) (tag : Tag) (code : Byte) : Statement (.unknownOperation lane tag code) := by
  intro _ p h
  cases h
  exact mgmtParcel_suits _ _ _ _ (by simp)

theorem grant (ids : List MemId) : Statement (.grant ids) := by
  intro _ p h
  cases h

theorem memoryResponse (id : MemId) (status : MemStatus) (beats : List Beat) :
    Statement (.memoryResponse id status beats) := by
  intro _ p h
  cases h

theorem responseTimeout (id : MemId) : Statement (.responseTimeout id) := by
  intro _ p h
  cases h

theorem windowEnd (cls : ClassNo) : Statement (.windowEnd cls) := by
  intro _ p h
  cases h

theorem slotEnd (cls : ClassNo) : Statement (.slotEnd cls) := by
  intro _ p h
  cases h

theorem transmitStart : Statement .transmitStart := by
  intro _ p h
  cases h

theorem transmissionEnd : Statement .transmissionEnd := by
  intro _ p h
  cases h

theorem laneDetached (lane : Lane) : Statement (.laneDetached lane) := by
  intro _ p h
  cases h

theorem finalReplyHanded : Statement .finalReplyHanded := by
  intro _ p h
  cases h

theorem restartStageMemory : Statement .restartStageMemory := by
  intro _ p h
  cases h

theorem restartFinalChange : Statement .restartFinalChange := by
  intro _ p h
  cases h

end Laws.ParcelForm

end Sys2Proof
end

