-- ==== Sys2Proof/Tests/Slice0.lean ====
section
/-! SUPPORT. Tests: the WellFormed smoke, parcels as bytes, one step a command on small states, and for each obligation with
hypotheses a state and operands that meet them. -/

namespace Sys2Proof.Tests

open Sys2Proof Sys2Proof.Machine

set_option Elab.async false

/-! ### WellFormed: a term that each check refuses -/

theorem test_wf_dropped_frame_that_passes :
    (Instr.parcelDropped ⟨(agentParcel 0x02 3 5 7 0 0 []).bytes, true⟩).wellFormed = false := by decide +kernel

theorem test_wf_write_payload : (Instr.write 0 0 0 0 0 (List.replicate 257 0)).wellFormed = false := by decide +kernel

theorem test_wf_payload :
    let ws := List.replicate 65 (0 : Word)
    (Instr.handover 0 0 ws).wellFormed = false ∧ (Instr.readRow 0 0 ws).wellFormed = false
      ∧ (Instr.loadRow 0 0 ws).wellFormed = false ∧ (Instr.invalidate 0 0 ws).wellFormed = false
      ∧ (Instr.readFaults 0 0 ws).wellFormed = false ∧ (Instr.clearFaults 0 0 ws).wellFormed = false := by decide +kernel

theorem test_wf_session_action :
    (Instr.sessionSuspend 0 0 [3, 1]).wellFormed = false ∧ (Instr.sessionSuspend 0 0 [3, 2]).wellFormed = false
      ∧ (Instr.sessionResume 0 0 [3, 0]).wellFormed = false ∧ (Instr.sessionReset 0 0 [3, 1]).wellFormed = false := by
  decide +kernel

theorem test_wf_throttle_action :
    (Instr.throttleStart 0 0 [3, 1]).wellFormed = false ∧ (Instr.throttleRelease 0 0 [3, 0]).wellFormed = false := by
  decide +kernel

theorem test_wf_load_of_a_loadable_table : (Instr.loadRow 0 0 [1, 0, 0, 0, 0, 0]).wellFormed = false := by decide +kernel

theorem test_wf_row :
    let ws := List.replicate 63 (0 : Word)
    (Instr.loadRowPort 0 0 0 ws).wellFormed = false ∧ (Instr.loadRowAgents 0 0 0 ws).wellFormed = false
      ∧ (Instr.loadRowWindows 0 0 0 ws).wellFormed = false ∧ (Instr.loadRowAreas 0 0 0 ws).wellFormed = false
      ∧ (Instr.loadRowClasses 0 0 0 ws).wellFormed = false ∧ (Instr.loadRowRoutes 0 0 0 ws).wellFormed = false := by
  decide +kernel

theorem test_wf_known_operation : (Instr.unknownOperation 0 0 0x0F).wellFormed = false := by decide +kernel

theorem test_wf_grant_ids :
    (Instr.grant [3, 3]).wellFormed = false ∧ (Instr.grant [1, 2, 3]).wellFormed = false := by decide +kernel

theorem test_wf_beats : (Instr.memoryResponse 0 .ok (List.replicate 34 0)).wellFormed = false := by decide +kernel

/-! ### Parcels as bytes (R175, R180) -/

/-- The check value of the CRC-32 of R175: the nine bytes of "123456789". -/
theorem test_crc_check_value :
    crc32 [0x31, 0x32, 0x33, 0x34, 0x35, 0x36, 0x37, 0x38, 0x39] = 0xCBF43926#32 := by decide +kernel

/-- A READ of lane 4, tag 9, session 3, 256 bytes at 0010_3F80h, byte by byte as R180 lays it out. -/
theorem test_receive_read :
    let body : List Byte := [0x03, 0x04, 0x09, 0x03, 0x00, 0x01, 0x00, 0x00, 0x80, 0x3F, 0x10, 0x00, 0, 0, 0, 0]
    receive ⟨body ++ bytesOf32 (crc32 body), true⟩ = .handed (.read 0x04 9 3 0x00103F80 256) := by decide +kernel

/-- A LOAD_ROW of the ROUTES table, row 8, from lane 1: operation code 06h in byte 4 (R182). -/
theorem test_receive_load_row :
    let body : List Byte :=
      [0x05, 0x01, 0x02, 0x00, 0x06, 0x00, 0x00, 0x00, 0, 0, 0, 0, 0, 0, 0, 0]
        ++ [7, 0, 0, 0, 8, 0, 0, 0, 1, 0, 0, 0, 0, 0, 0, 0]
    receive ⟨body ++ bytesOf32 (crc32 body), true⟩ = .handed (.loadRowRoutes 0x01 2 8 [1, 0]) := by decide +kernel

/-- A tag byte of 16 fails check 2; a wrong CRC, 19 bytes or no end delimiter fail check 1 (R175). -/
theorem test_receive_faults :
    let body : List Byte := [0x02, 0x13, 0x10, 0, 0, 0, 0, 0, 0, 0, 0, 0, 0, 0, 0, 0]
    receive ⟨body ++ bytesOf32 (crc32 body), true⟩ = .formatFault 3
      ∧ receive ⟨body ++ bytesOf32 (crc32 body + 1), true⟩ = .crcFault
      ∧ receive ⟨List.replicate 19 0, true⟩ = .crcFault
      ∧ receive ⟨body ++ bytesOf32 (crc32 body), false⟩ = .crcFault := by decide +kernel

theorem test_decode_table_word : decodeTableWord 8 3 = none := rfl

/-! ### Small states -/

/-- The link UP after line reset. -/
def up : State := { State.reset with link := { State.reset.link with state := .up } }

/-- CLAIMED with lane 0 as manager. -/
def managed : State := { up with mgmt := { up.mgmt with claim := .claimed, manager := some 0 } }

/-- CLAIM_PENDING of the strapped lane 0. -/
def waiting (timer : Nat) : State :=
  { up with mgmt := { up.mgmt with claim := .pending, confirmTimer := some timer } }

def agentRow : AgentRow := ⟨true, 101, 1, 2, .normal, 4, 4, false, true⟩

def windowRow (base pages : Nat) (kind : WindowKind) : WindowRow :=
  ⟨true, 0xFFFF, BitVec.ofNat 32 base, pages, kind, true, true, false, 100, 4⟩

/-- Rows 0 to 2 are a DIRECT, a TRANSLATED and a SINK window. -/
def windowRows : Vector WindowRow 24 :=
  ((State.reset.windows.active.set 0 (windowRow 0 16 .direct)).set 1 (windowRow 0x10000 16 .translated)).set 2
    (windowRow 0x20000 1 .sink)

/-- Lane 1's row names area 1 and class 2; the three windows are ACTIVE; class 2 is in ENFORCE. -/
def configured : State :=
  { managed with
    agents := managed.agents.set 1 agentRow
    areas := managed.areas.set 1 ⟨⟨true, 32, 8, 8⟩, 0, 0, 0⟩
    windows := ⟨windowRows, windowRows, 1⟩
    portRow := ⟨8, 64, 4, 1000⟩
    classes := managed.classes.set 2 ⟨⟨.enforce, .both, 1, 6, 2, 10, 3⟩, false, 4, 0, 0, some 1000, some 10⟩ }

/-- A record of lane 1 with a session. -/
def laneOne (session : SessionState) (slots : List Slot) : LaneState :=
  { LaneState.reset with session := session, number := 1, credit := 4, slots := slots, joinReplySent := true }

/-- Lane 1 with this record. -/
def withLane (r : LaneState) : State := configured.setLane 1 r

def joined : State := withLane (laneOne .active [])

/-- A slot of 100 bytes at link address 0 (two units). -/
def slot (tag : Tag) (dir : Dir) (stage : Stage) (pieces : List Piece) (held : List HeldUnit) : Slot :=
  ⟨tag, 1, dir, 0x10, 100, none, pieces, stage, none, held⟩

/-- The one piece of a DIRECT slot. -/
def piece (id : Option MemId) : Piece := ⟨some 0x64010, 100, .notNeeded, id, .pending, none⟩

/-- A queued READ with tag 3. -/
def queuedRead : Slot := slot 3 .read .queued [piece none] []

def transaction (dir : Dir) : Transaction := ⟨dir, 0x64010, pieceMasks 0x64010 100, []⟩

/-- An ISSUED slot of lane 1 with tag 3 under id 5. -/
def issuedSlot (dir : Dir) (held : List HeldUnit) : Slot := slot 3 dir .issued [piece (some 5)] held

def inFlight (r : LaneState) (dir : Dir) : State :=
  (withLane { r with issued := 1 }).setId 5 (.inUse (.piece ⟨1, 3, false⟩) 900 (transaction dir))

/-- The class 2 of `configured`. -/
def classTwo : BudgetClass := ⟨⟨.enforce, .both, 1, 6, 2, 10, 3⟩, false, 4, 0, 0, some 1000, some 10⟩

/-- A record of LINK_CRC, severity NOTICE. -/
def crcRecord (n : Nat) : FaultRecord := ⟨BitVec.ofNat 16 n, 0, { cause := .linkCrc }⟩

/-- A log of n records of LINK_CRC. -/
def logOf (n : Nat) : FaultUnit := { managed.faults with log := (List.range n).map crcRecord, nextSeq := BitVec.ofNat 16 n }

theorem managed_ready : managed.ready 0 := ⟨rfl, rfl, rfl, rfl, rfl, rfl⟩
theorem configured_ready : configured.ready 0 := ⟨rfl, rfl, rfl, rfl, rfl, rfl⟩
theorem withLane_ready (r : LaneState) : (withLane r).ready 0 := ⟨rfl, rfl, rfl, rfl, rfl, rfl⟩

/-! ### One step a command -/

/-- The state a step answers, where it answers one. -/
def after (c : Instr) (s : State) : State :=
  match exec c s with
  | .next t => t
  | .fault _ => s
  | .refused _ => s

theorem test_line_reset_straps : (after (.lineReset 7) managed).mgmt.strapped = 7 := by decide +kernel
theorem test_signal_present : (after .signalPresent State.reset).link.state = .aligning := by decide +kernel
theorem test_sixteenth_good_marker :
    (after .goodMarker { up with link := { up.link with state := .aligning, good := 15 } }).link.state = .up := by
  decide +kernel
theorem test_third_damaged_marker :
    let t := after .damagedMarker { joined with link := { joined.link with damaged := 2 } }
    t.link.state = .down ∧ (t.lane 1).session = .detached ∧ t.faults.alert = true := by decide +kernel
theorem test_loss_of_signal : (after .lossOfSignal joined).faults.log.length = 1 := by decide +kernel
theorem test_parcel_dropped :
    (after (.parcelDropped ⟨[], true⟩) up).faults.log.map (·.report.cause) = [.linkCrc] := by decide +kernel
theorem test_join :
    let r := (after (.join 1 5 101) configured).lane 1
    r.session = .active ∧ r.number = 1 ∧ r.credit = 8 ∧ r.stream = [.joinReply .ok 5 1] := by decide +kernel
theorem test_join_refused : ((after (.join 1 5 102) configured).lane 1).stream = [.joinReply .refused 5 0] := by
  decide +kernel
theorem test_leave :
    let r := (after (.leave 1 6 1) joined).lane 1
    r.session = .detached ∧ r.stream = [.closing 6 1] := by decide +kernel
theorem test_read_direct :
    ((after (.read 1 3 1 0x10 100) joined).lane 1).slots.map (fun q => (q.stage, q.pieces.map (·.address)))
      = [(.queued, [some 0x64010])] := by decide +kernel
theorem test_read_splits :
    ((after (.read 1 3 1 0x10FF0 100) joined).lane 1).slots.map (fun q => q.pieces.map fun p => (p.length, p.entry))
      = [[(16, some 4), (84, some 5)]] := by decide +kernel
theorem test_write :
    let t := after (.write 1 3 1 0x10 100 (List.replicate 100 0xAB)) joined
    (t.area 1).writeOccupied = 2 ∧ (t.lane 1).credit = 2 ∧ t.staging.length = 100
      ∧ Memory.read t.staging (33 * 64 + 35) = some 0xAB := by decide +kernel
theorem test_write_overrun :
    (after (.write 1 3 1 0x10 256 (List.replicate 256 0)) (withLane { laneOne .active [] with credit := 3 })).link.refusals.map
      (·.code) = [.creditOverrun] := by decide +kernel
theorem test_claim : (after (.claim 0 1) up).mgmt.claim = .pending := by decide +kernel
theorem test_confirm : (after (.confirm 0 1) (waiting 5)).mgmt.manager = some 0 := by decide +kernel
theorem test_confirm_timer_expiry : (after .confirmTimerExpiry (waiting 5)).mgmt.claim = .unclaimed := by decide +kernel
theorem test_release : (after (.release 0 1) managed).mgmt.claim = .unclaimed := by decide +kernel
theorem test_handover : (after (.handover 0 1 [1]) joined).mgmt.manager = some 1 := by decide +kernel
theorem test_read_row :
    ((after (.readRow 0 1 [5, 1]) joined).mgmt.reply.map (·.payload)) = some [1, 32, 8, 8, 1, 0, 4, 0, 0] := by
  decide +kernel
theorem test_load_row : ((after (.loadRow 0 1 [4, 0]) managed).mgmt.reply.map (·.status)) = some .badTable := by
  decide +kernel
theorem test_load_row_port : (after (.loadRowPort 0 1 0 [8, 40, 2, 20]) managed).portRow = ⟨8, 40, 2, 20⟩ := by
  decide +kernel
theorem test_load_row_agents :
    (after (.loadRowAgents 0 1 1 [1, 101, 0, 1, 2, 0, 4, 4, 0, 1]) managed).agent 1 = agentRow := by decide +kernel
theorem test_load_row_windows :
    (after (.loadRowWindows 0 1 0 [1, 0xFFFF, 0, 16, 0, 1, 1, 0, 100, 4]) managed).windows.staged[0]
      = windowRow 0 16 .direct := by decide +kernel
theorem test_load_row_areas :
    ((after (.loadRowAreas 0 1 1 [1, 32, 8, 8]) managed).area 1).row = ⟨true, 32, 8, 8⟩ := by decide +kernel
theorem test_load_row_classes :
    ((after (.loadRowClasses 0 1 2 [2, 2, 1, 6, 2, 10, 3]) managed).cls 2).windowTimer = some 1000 := by decide +kernel
theorem test_load_row_routes : (after (.loadRowRoutes 0 1 1 [2, 1]) managed).faults.routes[0] = ⟨.line, true⟩ := by
  decide +kernel
theorem test_commit :
    let s := { managed with windows := { managed.windows with staged := windowRows } }
    (after (.commit 0 1) s).windows = ⟨windowRows, windowRows, 1⟩ := by decide +kernel
theorem test_invalidate :
    let s := { managed with xlat := { managed.xlat with cache := [⟨7, 1, true, true⟩, ⟨8, 2, true, true⟩] } }
    (after (.invalidate 0 1 [1, 0, 7]) s).xlat.cache = [⟨8, 2, true, true⟩] := by decide +kernel
theorem test_session_suspend : ((after (.sessionSuspend 0 1 [1, 0]) joined).lane 1).session = .suspended := by
  decide +kernel
theorem test_session_resume :
    ((after (.sessionResume 0 1 [1, 1]) (withLane (laneOne .suspended []))).lane 1).credit = 8 := by decide +kernel
theorem test_session_reset :
    let t := after (.sessionReset 0 1 [1, 2]) (withLane (laneOne .active [queuedRead]))
    (t.lane 1).session = .detached ∧ t.mgmt.reply.map (·.status) = some .done := by decide +kernel
theorem test_throttle_start : ((after (.throttleStart 0 1 [2, 0]) configured).cls 2).holdsLeft = 2 := by decide +kernel
theorem test_throttle_release :
    let s := configured.setClass 2 { classTwo with holding := true, holdsLeft := 2, slotUsed := 3 }
    ((after (.throttleRelease 0 1 [2, 1]) s).cls 2) = classTwo := by decide +kernel
theorem test_read_faults :
    (after (.readFaults 0 1 [2]) { managed with faults := logOf 4 }).mgmt.reply.map (fun r => (r.kindWord, r.payload.length))
      = some (2, 16) := by decide +kernel
theorem test_clear_faults :
    (after (.clearFaults 0 1 [2]) { managed with faults := logOf 4 }).faults.log = [crcRecord 3] := by decide +kernel
theorem test_lock : (after (.lock 0 1) managed).mgmt.locked = true := by decide +kernel
theorem test_restart :
    let t := after (.restart 0 1) joined
    t.mgmt.restarts = 1 ∧ t.mgmt.reply.map (·.code) = some 0x0E ∧ (t.lane 1).session = .detached := by decide +kernel
theorem test_status : ((after (.status 0 1) joined).mgmt.reply.map (·.payload)) =
    some [2, 0, 0, 0, 0, 1, 0, 15, 1, 0, 0, 0, 0, 0] := by decide +kernel
theorem test_unknown_operation :
    ((after (.unknownOperation 0 1 0x10) managed).mgmt.reply.map (·.status)) = some .badValue := by decide +kernel
theorem test_grant :
    let t := after (.grant [5]) (withLane (laneOne .active [queuedRead]))
    t.memId 5 = .inUse (.piece ⟨1, 3, false⟩) 1000 (transaction .read) ∧ (t.area 1).readReserved = 2
      ∧ (t.cls 2).holding = true := by decide +kernel
theorem test_memory_response :
    let t := after (.memoryResponse 5 .corrected (List.replicate 13 0x1122334455667788))
      (inFlight (laneOne .active [issuedSlot .read [⟨40, false⟩, ⟨41, false⟩]]) .read)
    (t.lane 1).slots.map (·.status) = [some .corrected] ∧ t.memId 5 = .free
      ∧ Memory.read t.staging (40 * 64) = some 0x88 ∧ Memory.read t.staging (41 * 64 + 35) = some 0x55 := by
  decide +kernel
theorem test_response_timeout :
    let t := after (.responseTimeout 5) (inFlight (laneOne .active [issuedSlot .write [⟨32, true⟩, ⟨33, true⟩]]) .write)
    t.memId 5 = .quarantined ∧ (t.lane 1).stream = [.answer 3] ∧ t.faults.alert = true := by decide +kernel
theorem test_window_end :
    let s := configured.setClass 2 { classTwo with holding := true, holdsLeft := 1, slotUsed := 3 }
    (after (.windowEnd 2) s).cls 2 = { classTwo with windowCount := 0 } := by decide +kernel
theorem test_slot_end :
    let s := configured.setClass 2 { classTwo with holding := true, holdsLeft := 1, slotUsed := 3, slotTimer := some 1 }
    ((after (.slotEnd 2) s).cls 2).slotUsed = 0 := by decide +kernel
theorem test_transmit_start :
    let s := withLane { laneOne .active [{ slot 3 .write .complete [piece none] [] with status := some .ok }] with
      stream := [.answer 3] }
    (after .transmitStart s).link.tx.map (fun x => (x.parcel.kind, x.parcel.length)) = some (0x86, 100) := by
  decide +kernel
/-- A NOTICE carries the manager lane's session number (R180; log 33). -/
theorem test_transmit_notice :
    let s := (withLane (laneOne .active [])).setLane 0 { LaneState.reset with session := .active, number := 9 }
    (after .transmitStart { s with faults := { s.faults with notices := [⟨.role 0 1, true⟩] } }).link.tx.map
      (fun x => (x.parcel.kind, x.parcel.lane, x.parcel.number, x.parcel.kindWord)) = some (0x88, 0, 9, 1) := by
  decide +kernel

theorem test_transmission_end :
    let s := withLane { laneOne .active [{ slot 3 .write .sending [piece none] [] with status := some .ok }] with
      stream := [.answer 3] }
    ((after .transmissionEnd { s with link := { s.link with tx := some ⟨.stream 1, agentParcel 0 0 0 0 0 0 []⟩ } }).lane 1).slots
      = [] := by decide +kernel
theorem test_lane_detached :
    ((after (.laneDetached 1) (withLane { laneOne .draining [] with drain := .silent })).lane 1).session = .detached := by
  decide +kernel
theorem test_final_reply_handed :
    (after .finalReplyHanded { managed with mgmt := { managed.mgmt with op := some ⟨.restart, 0, 1, true⟩ } }).mgmt.reply.map
      (·.code) = some 0x0E := by decide +kernel
theorem test_restart_stage_memory :
    let s := configured.setId 5 (.inUse (.walk 0) 9 (transaction .read))
    (after .restartStageMemory { s with mgmt := { s.mgmt with stage := .lanes } }).mgmt.stage = .memory := by decide +kernel
theorem test_restart_final_change :
    let s := configured.setId 5 .quarantined
    let t := after .restartFinalChange { s with mgmt := { s.mgmt with stage := .memory, op := some ⟨.restart, 0, 1, false⟩ } }
    t.mgmt.stage = .none ∧ t.memId 5 = .free ∧ (t.cls 2).windowCount = 0 ∧ t.mgmt.restarts = 1 := by decide +kernel
/-- The state a step answers, where it answers one. -/
def stepped (s : State) : State :=
  match step s with
  | .next t => t
  | .fault _ => s
  | .refused _ => s

theorem test_step_of_the_front_command :
    stepped { up with pending := [.claim 0 1, .status 0 2] } = { after (.claim 0 1) up with pending := [.status 0 2] } := by
  decide +kernel
theorem test_idle_step : stepped (waiting 1) = { up with timebase := 1 } := by decide +kernel

/-! ### The hypotheses of the statements are met -/

/-- The link ALIGNING after so many good markers, and UP after so many damaged ones. -/
def aligning (good : Nat) : State := { up with link := { up.link with state := .aligning, good := good } }
def damaged (n : Nat) (s : State) : State := { s with link := { s.link with damaged := n } }

/-- A state with an operation in progress. -/
def withOp (o : Operation) (s : State) : State := { s with mgmt := { s.mgmt with op := some o } }

/-- A state that is RESTARTING. -/
def restarting (stage : RestartStage) (s : State) : State := { s with mgmt := { s.mgmt with stage := stage } }

def refusedJoin : StreamItem := .joinReply .refused 5 0

/-- No timer ends; then the confirm timer, the timer of id 5, the window timer and the slot timer of class 2 alone. -/
theorem test_hyp_IdleStepIsOneMicrosecond :
    let last := fun timer : Option Nat => timer.any fun n => n ≤ 1
    let confirmEnds := fun s : State => s.mgmt.claim == .pending && last s.mgmt.confirmTimer
    let idEnds := fun (s : State) (i : MemId) => match s.memId i with
      | .inUse _ n _ => decide (n ≤ 1)
      | _ => false
    let ends := fun s : State => (confirmEnds s, allIds.filter (idEnds s),
      allClasses.filter fun c => last (s.cls c).windowTimer, allClasses.filter fun c => last (s.cls c).slotTimer)
    let timed := fun n => joined.setId 5 (.inUse (.walk 0) n ⟨.read, 0x8028, [0xFF], []⟩)
    (waiting 1).pending = [] ∧ (waiting 1).mgmt.claim = .pending ∧ (waiting 1).mgmt.confirmTimer = some 1
      ∧ (waiting 2).pending = [] ∧ (waiting 2).mgmt.claim = .pending ∧ (waiting 2).mgmt.confirmTimer = some (0 + 2)
      ∧ ends (timed 2) = (false, [], [], []) ∧ ends (waiting 1) = (true, [], [], []) ∧ ends (timed 1) = (false, [5], [], [])
      ∧ (∀ c, ((timed 1).cls c).row.mode ≠ .off → 0 < ((timed 1).cls c).row.window ∧ 0 < ((timed 1).cls c).row.slot)
      ∧ ends (joined.setClass 2 { classTwo with windowTimer := some 1 }) = (false, [], [2], [])
      ∧ ends (joined.setClass 2 { classTwo with slotTimer := some 1 }) = (false, [], [], [2]) := by
  refine ⟨?_, ?_, ?_, ?_, ?_, ?_, ?_, ?_, ?_, ?_, ?_, ?_⟩ <;> decide +kernel

theorem test_hyp_LinkStateFollowsTheReceivePair :
    State.reset.link.state = .down ∧ (aligning 14).link.state = .aligning ∧ (aligning 14).link.good < 15
      ∧ (aligning 15).link.state = .aligning ∧ (aligning 15).link.good = 15
      ∧ (damaged 1 up).link.state = .up ∧ (damaged 1 up).link.damaged < 2 := by decide +kernel

/-- Lane 1's SENDING answer is in transmission, before an ISSUED slot and a QUEUED one; no other lane has a slot. -/
theorem test_hyp_LinkLossEmptiesTheSources :
    let s := damaged 2 (withOp ⟨.restart, 0, 1, false⟩ joined)
    let slots := [slot 2 .write .sending [] [], { issuedSlot .write [⟨32, true⟩] with tag := 4 }, queuedRead]
    let cut := withLane { laneOne .active slots with stream := [.answer 2] }
    let u : State := { cut with link := { cut.link with tx := some ⟨.stream 1, agentParcel 0 0 0 0 0 0 []⟩ } }
    s.link.state = .up ∧ 2 ≤ s.link.damaged ∧ s.mgmt.op.isSome ∧ (s.lane 0).session = .detached
      ∧ (s.lane 1).session ≠ .detached ∧ u.link.state = .up ∧ (u.lane 1).session ≠ .detached ∧ (u.lane 1).tags.Nodup
      ∧ u.aloneInArea 1
      ∧ (withOp ⟨.restart, 0, 1, true⟩ u).mgmt.op = some ⟨.restart, 0, 1, true⟩ ∧ u.mgmt.stage = .none
      ∧ (withOp ⟨.sessionReset 1, 0, 1, false⟩ u).mgmt.op = some ⟨.sessionReset 1, 0, 1, false⟩ := by
  decide +kernel

theorem test_hyp_DamagedParcelsAreDropped :
    let good : List Byte → Bool := fun bytes =>
      decide (20 ≤ bytes.length ∧ bytes.drop (bytes.length - 4) = bytesOf32 (crc32 (bytes.take (bytes.length - 4))))
    let wide := ({ agentParcel 0x03 3 0 0 0 0 [] with tag := 16 } : Parcel).bytes
    let long := (agentParcel 0x02 3 0 0 0 0 [1]).bytes
    let sound := (agentParcel 0x01 3 15 0 0 0 [1, 2, 3, 4, 5, 6, 7, 8]).bytes
    up.link.state = .up ∧ good (wide.take 19) = false
      ∧ (good wide = true ∧ 15 < (wide.getD 2 0).toNat)
      ∧ (good long = true ∧ long.getD 0 0 = 0x02 ∧ long.length - 20 ≠ 0)
      ∧ (good sound = true ∧ sound.getD 0 0 = 0x01 ∧ sound.length - 20 = 8 ∧ (sound.getD 2 0).toNat ≤ 15) := by
  decide +kernel

theorem test_hyp_ParcelsAreReceivedAsSent :
    let c := Instr.write 1 15 255 0xFFFFFFFF 256 (List.replicate 256 0xFF)
    c.wellFormed = true ∧ ∃ p, instrParcel c = some p := ⟨by decide +kernel, _, rfl⟩

theorem test_hyp_JoinIsAnswered :
    let busy := configured.setLane 1 { LaneState.reset with stream := [refusedJoin] }
    let row := configured.agent 1
    let area := configured.area row.area
    let r := configured.lane 1
    configured.link.state = .up ∧ configured.noClaimOf 1 ∧ r.immediateBusy = false ∧ configured.mgmt.stage = .none
      ∧ r.session = .detached ∧ row.enabled = true ∧ row.identifier = 101 ∧ area.row.enabled = true
      ∧ area.writeOccupied = 0 ∧ r.credit = 0 ∧ r.creditWaiting = none ∧ 0 < area.row.writeUnits
      ∧ row.identifier ≠ 102 ∧ (configured.agent 2).enabled = false
      ∧ busy.link.state = .up ∧ busy.noClaimOf 1 ∧ (busy.lane 1).immediateBusy = true
      ∧ (restarting .lanes configured).noClaimOf 1 ∧ (restarting .lanes configured).mgmt.stage ≠ .none
      ∧ joined.noClaimOf 1 ∧ (joined.lane 1).immediateBusy = false ∧ (joined.lane 1).session ≠ .detached := by
  decide +kernel

theorem test_hyp_LeaveIsAnswered :
    let free := fun s : State => s.link.state = .up ∧ s.noClaimOf 1 ∧ s.mgmt.stage = .none
      ∧ (s.lane 1).immediateBusy = false
    let full := withLane (laneOne .suspended [queuedRead, { issuedSlot .write [] with tag := 4 }])
    let write := withLane (laneOne .active [issuedSlot .write [], slot 4 .write .queued [piece none] [⟨32, true⟩, ⟨33, true⟩]])
    free configured ∧ (configured.lane 1).session = .detached
      ∧ free (withLane { laneOne .draining [queuedRead] with drain := .answered })
      ∧ free joined ∧ (joined.lane 1).session = .active ∧ (0 : Byte) ≠ (joined.lane 1).number
      ∧ (1 : Byte) = (joined.lane 1).number ∧ (joined.lane 1).slots = [] ∧ joined.mgmt.op = none
      ∧ (withOp ⟨.sessionReset 2, 0, 2, false⟩ joined).mgmt.op = some ⟨.sessionReset 2, 0, 2, false⟩
      ∧ free full ∧ (full.lane 1).session = .suspended ∧ (1 : Byte) = (full.lane 1).number ∧ (full.lane 1).slots ≠ []
      ∧ (full.lane 1).tags.Nodup ∧ (full.lane 1).slots.head? = some queuedRead ∧ queuedRead.unissued = true
      ∧ (full.lane 1).stream = []
      ∧ free write ∧ (write.lane 1).session = .active ∧ (1 : Byte) = (write.lane 1).number ∧ (write.lane 1).tags.Nodup
      ∧ (write.lane 1).slots.head? = some (issuedSlot .write []) ∧ (issuedSlot .write []).unissued = false
      ∧ (issuedSlot .write []).stage ≠ .complete
      ∧ (withLane { laneOne .active [] with stream := [refusedJoin] }).noClaimOf 1
      ∧ ((withLane { laneOne .active [] with stream := [refusedJoin] }).lane 1).immediateBusy = true := by
  decide +kernel

theorem test_hyp_LaneEntersDetached :
    let silent := withLane { laneOne .draining [] with drain := .silent }
    let answered := withLane { laneOne .draining [] with drain := .answered, closingOwed := some 6 }
    (joined.lane 1).session ≠ .draining
      ∧ (silent.lane 1).session = .draining ∧ (silent.lane 1).slots = [] ∧ silent.mgmt.stage = .none
      ∧ silent.mgmt.op = none ∧ (silent.lane 1).drain = .silent
      ∧ (answered.lane 1).session = .draining ∧ (answered.lane 1).slots = [] ∧ answered.mgmt.stage = .none
      ∧ answered.mgmt.op = none ∧ (answered.lane 1).drain = .answered ∧ (answered.lane 1).closingOwed = some 6
      ∧ (withOp ⟨.sessionReset 1, 0, 2, false⟩ silent).mgmt.op = some ⟨.sessionReset 1, 0, 2, false⟩
      ∧ silent.mgmt.forfeit = false ∧ silent.mgmt.reply = none
      ∧ (withOp ⟨.sessionReset 1, 0, 2, false⟩ { silent with mgmt := { silent.mgmt with forfeit := true } }).mgmt.forfeit = true
      ∧ (silent.replied 0 1 0x0F .done 0 []).mgmt.reply.isSome := by decide +kernel

/-- Sessions in each state, for a SESSION parcel of the manager, lane 0. -/
theorem test_hyp_SuspendAndResume :
    joined.ready (laneOf 0) ∧ (withLane (laneOne .suspended [])).ready (laneOf 0)
      ∧ 2 ≤ [1, (0 : Word)].length ∧ word [1, 0] 0 = (1 : Lane).val ∧ word [1, 0] 1 = 0 ∧ word [1, 1] 1 = 1
      ∧ (joined.lane 1).session = .active ∧ (joined.lane 1).session ≠ .suspended
      ∧ ((withLane (laneOne .suspended [])).lane 1).session = .suspended
      ∧ ((withLane (laneOne .suspended [])).lane 1).session ≠ .active :=
  ⟨withLane_ready _, withLane_ready _, by decide +kernel⟩

theorem test_hyp_SessionResetSilencesTheLane :
    let silent := withLane { laneOne .draining [queuedRead] with drain := .silent }
    let full := withLane (laneOne .active [queuedRead, { issuedSlot .write [] with tag := 4 }])
    configured.ready (laneOf 0) ∧ silent.ready (laneOf 0) ∧ full.ready (laneOf 0)
      ∧ word [1, 2] 0 = (1 : Lane).val ∧ word [1, 2] 1 = 2 ∧ (configured.lane 1).session = .detached
      ∧ (silent.lane 1).session = .draining ∧ (silent.lane 1).drain = .silent
      ∧ (full.lane 1).session ≠ .detached ∧ (full.lane 1).drain ≠ .silent ∧ (full.lane 1).tags.Nodup :=
  ⟨configured_ready, withLane_ready _, withLane_ready _, by decide +kernel⟩

/-- Ungranted space at the quantum (4), one unit with nothing occupied or committed, and one unit less. -/
theorem test_hyp_GrantRuleGivesTheWholeSpace :
    let due := fun s : State =>
      let a := s.area (s.agent 1).area
      let r := s.lane 1
      let free := a.row.writeUnits - (a.writeOccupied + r.credit)
      r.session = .active ∧ 0 < free ∧ ((s.agent 1).quantum ≤ free ∨ (a.writeOccupied = 0 ∧ r.credit = 0))
    due joined ∧ (joined.area (joined.agent 1).area).writeOccupied + (joined.lane 1).credit
        ≤ (joined.area (joined.agent 1).area).row.writeUnits
      ∧ due { withLane { laneOne .active [] with credit := 0 } with areas := configured.areas.set 1 ⟨⟨true, 32, 1, 8⟩, 0, 0, 0⟩ }
      ∧ ¬due (withLane { laneOne .active [] with credit := 5 }) := by decide +kernel

theorem test_hyp_UnclaimedTakesOnlyTheStrappedClaim :
    (∃ rq, mgmtOf (.claim 0 1) = some rq ∧ rq.code = 0x01 ∧ rq.lane = up.mgmt.strapped)
      ∧ (∃ rq, mgmtOf (.claim 1 1) = some rq ∧ rq.lane ≠ up.mgmt.strapped)
      ∧ (∃ rq, mgmtOf (.confirm 0 1) = some rq ∧ rq.code ≠ 0x01)
      ∧ up.link.state = .up ∧ up.mgmt.reply = none ∧ up.mgmt.claim = .unclaimed := by
  refine ⟨⟨_, rfl, ?_⟩, ⟨_, rfl, ?_⟩, ⟨_, rfl, ?_⟩, ?_⟩ <;> decide +kernel

theorem test_hyp_PendingClaimIsSettled :
    let s := waiting 1
    s.mgmt.claim = .pending ∧ s.mgmt.strapped = 0 ∧ s.link.state = .up ∧ s.mgmt.reply = none ∧ s.mgmt.confirmTimer.isSome
      ∧ (∃ rq, mgmtOf (.confirm 0 1) = some rq ∧ rq.code = 0x02 ∧ rq.lane = 0)
      ∧ (parcelLane (.claim 0 1) = some 0 ∧ ∀ rq, mgmtOf (.claim 0 1) = some rq → rq.code ≠ 0x02)
      ∧ (parcelLane (.join 0 1 5) = some 0 ∧ ∀ rq, mgmtOf (.join 0 1 5) = some rq → rq.code ≠ 0x02)
      ∧ (∃ rq, mgmtOf (.confirm 1 1) = some rq ∧ rq.lane ≠ 0)
      ∧ parcelLane (.join 15 1 5) = some 15 ∧ mgmtOf (.join 15 1 5) = none := by
  refine ⟨rfl, rfl, rfl, rfl, rfl, ⟨_, rfl, rfl, rfl⟩, ⟨rfl, ?_⟩, ⟨rfl, ?_⟩, ⟨_, rfl, by decide⟩, rfl, rfl⟩
  · intro rq h
    cases h
    decide
  · intro rq h
    cases h

theorem test_hyp_MgmtParcelsAreSettledInOrder :
    let full : State := managed.replied 0 1 0x0F .done 0 []
    let busy := withOp ⟨.restart, 0, 1, false⟩ (restarting .memory managed)
    let pending : State := (waiting 5).replied 0 1 0x01 .done 0 []
    full.mgmt.claim ≠ .pending ∧ full.mgmt.reply.isSome ∧ full.link.state = .up
      ∧ (pending.mgmt.claim = .pending ∧ pending.mgmt.reply.isSome ∧ pending.link.state = .up)
      ∧ (∃ rq, mgmtOf (.claim 0 1) = some rq ∧ rq.lane = pending.mgmt.strapped ∧ rq.code ≠ 0x02)
      ∧ (∃ rq, mgmtOf (.confirm 0 1) = some rq ∧ rq.code = 0x02)
      ∧ (∃ rq, mgmtOf (.status 1 1) = some rq ∧ rq.lane ≠ pending.mgmt.strapped ∧ managed.mgmt.manager ≠ some rq.lane)
      ∧ managed.link.state = .up ∧ managed.mgmt.reply = none ∧ managed.mgmt.claim = .claimed
      ∧ (∃ rq, mgmtOf (.status 0 1) = some rq ∧ busy.mgmt.manager = some rq.lane) ∧ busy.mgmt.claim = .claimed
      ∧ busy.mgmt.reply = none ∧ busy.mgmt.op = some ⟨.restart, 0, 1, false⟩
      ∧ managed.ready (laneOf 0)
      ∧ 15 < word [16] 0 ∧ 15 < word [16, 0] 0 ∧ 2 < word [15, 3] 1 ∧ [(4 : Word)].length < 2
      ∧ word [0, 0] 0 = 0 ∧ word [4, 0] 0 = 4 ∧ 7 < word [8, 0] 0 := by
  refine ⟨by decide +kernel, rfl, rfl, ⟨rfl, rfl, rfl⟩, ⟨_, rfl, by decide +kernel⟩, ⟨_, rfl, rfl⟩, ⟨_, rfl, by decide +kernel⟩,
    rfl, rfl, rfl, ⟨_, rfl, rfl⟩, rfl, rfl, rfl, managed_ready, ?_⟩
  decide +kernel

theorem test_hyp_TheManagerGivesUpOrPassesTheRole :
    joined.ready (laneOf 0) ∧ word [1] 0 = (1 : Lane).val ∧ word [0] 0 = (0 : Lane).val ∧ (1 : Lane) ≠ laneOf 0
      ∧ (0 : Lane) = laneOf 0 ∧ (joined.lane 1).session = .active ∧ (joined.agent 1).manageCapable = true
      ∧ (15 : Lane) ≠ laneOf 0 ∧ word [15] 0 = (15 : Lane).val ∧ (joined.lane 15).session ≠ .active :=
  ⟨withLane_ready _, by decide +kernel⟩

theorem test_hyp_ReadRowReturnsTheRow :
    let alone := fun s : State => (∃ l, (s.agent l).enabled = true ∧ (s.agent l).area = 1
        ∧ ∀ k, (s.agent k).enabled = true → (s.agent k).area = 1 → k = l)
      ∧ (∀ l, (s.agent l).enabled = true → (s.agent l).area ≠ 15)
    joined.ready (laneOf 0) ∧ alone joined ∧ 2 ≤ [0, (0 : Word)].length ∧ 7 < word [8, 0] 0
      ∧ (∀ x ∈ [(0, 1), (1, 1), (2, 16), (3, 24), (4, 24), (5, 16), (6, 8)],
          word [BitVec.ofNat 32 x.1, BitVec.ofNat 32 x.2] 0 = x.1 ∧ x.2 ≤ word [BitVec.ofNat 32 x.1, BitVec.ofNat 32 x.2] 1)
      ∧ word [7, 0] 0 = 7 ∧ word [7, 0] 1 = 0 ∧ 24 < word [7, 25] 1 ∧ word [7, 24] 1 = (23 : Fin 24).val + 1
      ∧ word [0, 0] 0 = 0 ∧ word [1, 0] 1 = 0 ∧ word [2, 15] 1 = (15 : Lane).val ∧ word [3, 23] 1 = (23 : Fin 24).val
      ∧ word [4, 0] 1 = (0 : Fin 24).val ∧ word [5, 1] 1 = (1 : Fin 16).val ∧ word [5, 15] 1 = (15 : Fin 16).val
      ∧ word [6, 7] 1 = (7 : ClassNo).val :=
  ⟨withLane_ready _, by decide +kernel⟩

/-- The part locked, with lane 0 as manager. -/
def lockedPart : State := { joined with mgmt := { joined.mgmt with locked := true } }

theorem lockedPart_ready : lockedPart.ready 0 := ⟨rfl, rfl, rfl, rfl, rfl, rfl⟩

theorem test_hyp_LoadPortRow :
    let refused := fun (s : State) (row : Word) (ws : List Word) => let w := word ws
      firstCase
        [(decide (row ≠ 0), MgmtStatus.badRow), (decide (ws.length < 4), .badValue), (s.mgmt.locked, .locked),
          (decide (16777215 < w 0 ∨ w 1 = 0 ∨ 1048576 < w 1 ∨ w 2 = 0 ∨ 16 < w 2 ∨ w 3 < 4 ∨ 4000 < w 3), .badValue),
          (decide (2 ^ 36 < w 0 * 4096 + w 1 * 8), .badValue)]
    joined.ready (laneOf 0) ∧ lockedPart.ready (laneOf 0) ∧ refused joined 1 [0, 1, 1, 4] = some .badRow
      ∧ refused joined 0 [0, 1, 1] = some .badValue ∧ refused lockedPart 0 [0, 1, 1, 4] = some .locked
      ∧ refused joined 0 [0, 1, 17, 4] = some .badValue ∧ refused joined 0 [16777215, 513, 1, 4] = some .badValue
      ∧ refused joined 0 [16777215, 512, 16, 4000] = none ∧ refused joined 0 [8, 64, 1, 4] = none
      ∧ word [16777215, 512, 16, 4000] 0 ≠ joined.portRow.tableBase
      ∧ (word [8, 64, 1, 4] 0 = joined.portRow.tableBase ∧ word [8, 64, 1, 4] 1 = joined.portRow.entryCount) :=
  ⟨withLane_ready _, lockedPart_ready, by decide +kernel⟩

theorem test_hyp_LoadAgentRow :
    let refused := fun (s : State) (l : Lane) (ws : List Word) => let w := word ws
      firstCase
        [(decide ((s.lane l).session ≠ .detached), MgmtStatus.rowInUse), (decide (ws.length < 10), .badValue),
          (decide (1 < w 0 ∨ 1 < w 8 ∨ 1 < w 9 ∨ 15 < w 3 ∨ 7 < w 4 ∨ 1 < w 5 ∨ 16 < w 6
            ∨ w 7 ∉ [0, 1, 2, 4, 8]), .badValue),
          (decide (w 0 = 1 ∧ (w 6 = 0 ∨ w 7 = 0)), .badValue),
          (decide (w 0 = 1 ∧ ∃ k, k ≠ l ∧ (s.agent k).enabled = true ∧ (s.agent k).area.val = w 3), .overlap)]
    joined.ready (laneOf 0) ∧ 15 < (16 : Word).toNat ∧ (15 : Word).toNat = (15 : Lane).val ∧ (1 : Word).toNat = (1 : Lane).val
      ∧ refused joined 1 [] = some .rowInUse ∧ refused joined 15 [0, 0, 0, 0, 0, 0, 0, 0, 0] = some .badValue
      ∧ refused joined 15 [0, 0, 0, 0, 0, 0, 0, 3, 0, 0] = some .badValue
      ∧ refused joined 15 [1, 0, 0, 0, 0, 0, 0, 8, 0, 0] = some .badValue
      ∧ refused joined 15 [1, 0, 0, 1, 0, 0, 1, 8, 0, 0] = some .overlap
      ∧ refused joined 15 [1, 0, 0, 15, 7, 1, 16, 8, 1, 1] = none :=
  ⟨withLane_ready _, by decide +kernel⟩

theorem test_hyp_LoadWindowRow :
    let refused := fun (s : State) (i : Fin 24) (ws : List Word) => let w := word ws
      firstCase
        [(decide (ws.length < 10), MgmtStatus.badValue),
          (s.mgmt.locked && ((s.windows.active[i]).guarded || decide (w 7 ≠ 0)), .locked),
          (decide (1 < w 0 ∨ 1 < w 5 ∨ 1 < w 6 ∨ 1 < w 7 ∨ 0xFFFF < w 1 ∨ w 2 % 4096 ≠ 0 ∨ 1048576 < w 3 ∨ 2 < w 4
            ∨ 16777215 < w 8 ∨ 1048575 < w 9), .badValue),
          (decide (w 0 = 1 ∧ w 3 = 0), .badValue), (decide (w 0 = 1 ∧ 1048576 < w 2 / 4096 + w 3), .badValue),
          (decide (w 0 = 1 ∧ w 4 = 0 ∧ 16777216 < w 8 + w 3), .badValue)]
    joined.ready (laneOf 0) ∧ lockedPart.ready (laneOf 0) ∧ 23 < (24 : Word).toNat ∧ (23 : Word).toNat = (23 : Fin 24).val
      ∧ refused joined 23 [0, 0, 0, 0, 0, 0, 0, 0, 0] = some .badValue
      ∧ refused lockedPart 23 [0, 0, 0, 0, 0, 0, 0, 1, 0, 0] = some .locked
      ∧ refused joined 23 [0, 0, 1, 0, 0, 0, 0, 0, 0, 0] = some .badValue
      ∧ refused joined 23 [1, 0, 0, 0, 0, 0, 0, 0, 0, 0] = some .badValue
      ∧ refused joined 23 [1, 0, 0xFFFFF000, 2, 1, 0, 0, 0, 0, 0] = some .badValue
      ∧ refused joined 23 [1, 0, 0, 2, 0, 0, 0, 0, 16777215, 0] = some .badValue
      ∧ refused joined 23 [1, 0xFFFF, 0, 1048576, 0, 1, 1, 1, 15728640, 1048575] = none :=
  ⟨withLane_ready _, lockedPart_ready, by decide +kernel⟩

theorem test_hyp_LoadAreaRow :
    let refused := fun (s : State) (a : Fin 16) (ws : List Word) => let w := word ws
      firstCase
        [(decide (ws.length < 4), MgmtStatus.badValue), (s.mgmt.locked, .locked),
          (decide (∃ l, (s.agent l).enabled = true ∧ (s.agent l).area = a ∧ (s.lane l).session ≠ .detached), .rowInUse),
          (decide (1 < w 0 ∨ 255 < w 1 ∨ 252 < w 2 ∨ 252 < w 3), .badValue),
          (decide (w 0 = 1 ∧ (w 2 < 4 ∨ w 3 < 4 ∨ 256 < w 1 + w 2 + w 3)), .badValue),
          (decide (w 0 = 1 ∧ ∃ b, b ≠ a ∧ (s.area b).row.enabled = true
            ∧ w 1 < (s.area b).row.firstUnit + (s.area b).row.writeUnits + (s.area b).row.readUnits
            ∧ (s.area b).row.firstUnit < w 1 + w 2 + w 3), .overlap)]
    joined.ready (laneOf 0) ∧ lockedPart.ready (laneOf 0) ∧ 15 < (16 : Word).toNat ∧ (15 : Word).toNat = (15 : Fin 16).val
      ∧ refused joined 15 [0, 0, 0] = some .badValue ∧ refused lockedPart 15 [0, 0, 0, 0] = some .locked
      ∧ refused joined 1 [0, 0, 0, 0] = some .rowInUse ∧ refused joined 15 [0, 256, 0, 0] = some .badValue
      ∧ refused joined 15 [1, 5, 252, 4] = some .badValue ∧ refused joined 15 [1, 47, 4, 4] = some .overlap
      ∧ refused joined 15 [1, 48, 204, 4] = none ∧ refused joined 15 [1, 24, 4, 4] = none :=
  ⟨withLane_ready _, lockedPart_ready, by decide +kernel⟩

theorem test_hyp_LoadClassRow :
    let refused := fun ws : List Word => let w := word ws
      firstCase
        [(decide (ws.length < 7), MgmtStatus.badValue),
          (decide (2 < w 0 ∨ 2 < w 1 ∨ 500 < w 2 ∨ 1048575 < w 3 ∨ 32 < w 4 ∨ 2550 < w 5 ∨ w 5 % 10 ≠ 0 ∨ 4096 < w 6),
            .badValue),
          (decide (w 0 ≠ 0 ∧ (w 2 = 0 ∨ w 3 = 0 ∨ w 4 = 0 ∨ w 6 = 0 ∨ w 5 < 10)), .badValue)]
    managed.ready (laneOf 0) ∧ 7 < (8 : Word).toNat ∧ (7 : Word).toNat = (7 : ClassNo).val
      ∧ refused [0, 0, 0, 0, 0, 0] = some .badValue ∧ refused [0, 0, 0, 0, 0, 2551, 0] = some .badValue
      ∧ refused [1, 0, 1, 1, 1, 0, 1] = some .badValue ∧ refused [0, 0, 0, 0, 0, 0, 0] = none
      ∧ refused [2, 2, 500, 1048575, 32, 2550, 4096] = none ∧ refused [1, 0, 1, 1, 1, 10, 1] = none :=
  ⟨managed_ready, by decide +kernel⟩

theorem test_hyp_LoadRouteRow :
    let refused := fun (s : State) (ws : List Word) => let w := word ws
      firstCase
        [(decide (ws.length < 2), MgmtStatus.badValue), (s.mgmt.locked, .locked), (decide (2 < w 0 ∨ 1 < w 1), .badValue)]
    joined.ready (laneOf 0) ∧ lockedPart.ready (laneOf 0) ∧ (0 : Word).toNat = 0 ∧ 24 < (25 : Word).toNat
      ∧ (24 : Word).toNat = (23 : Fin 24).val + 1 ∧ refused joined [0] = some .badValue
      ∧ refused lockedPart [0, 0] = some .locked ∧ refused joined [3, 0] = some .badValue ∧ refused joined [2, 1] = none :=
  ⟨withLane_ready _, lockedPart_ready, by decide +kernel⟩

/-- Row 23 of the STAGED copy awaits a COMMIT. -/
def staged : State :=
  { joined with windows := { joined.windows with staged := windowRows.set 23 (windowRow 0x30000 1 .sink) } }

theorem staged_ready : staged.ready 0 := ⟨rfl, rfl, rfl, rfl, rfl, rfl⟩

theorem test_hyp_CommitLockAndStatus :
    staged.ready (laneOf 0) ∧ joined.ready (laneOf 0) ∧ lockedPart.ready (laneOf 0)
      ∧ (∃ i : Fin 24, staged.windows.staged[i] ≠ staged.windows.active[i])
      ∧ (¬∃ i : Fin 24, joined.windows.staged[i] ≠ joined.windows.active[i])
      ∧ lockedPart.mgmt.locked = true ∧ staged.mgmt.locked = false ∧ joined.mgmt.locked = false :=
  ⟨staged_ready, withLane_ready _, lockedPart_ready, by decide +kernel⟩

theorem test_hyp_InvalidateRemovesTheScope :
    let bad := fun ws : List Word => let w := word ws
      ws.length < 3 ∨ 1 < w 0 ∨ (w 0 = 1 ∧ (1048575 < w 1 ∨ 1048575 < w 2 ∨ w 2 < w 1))
    managed.ready (laneOf 0) ∧ bad [0, 0] ∧ bad [2, 0, 0] ∧ bad [1, 1, 0] ∧ bad [1, 0, 1048576] ∧ ¬bad [0, 9, 3]
      ∧ ¬bad [1, 1048575, 1048575] :=
  ⟨managed_ready, by decide +kernel⟩

/-- Class 2 HOLDING with this many holds left. -/
def holdingClass (holds : Nat) : State :=
  joined.setClass 2 { classTwo with holding := true, holdsLeft := holds, slotUsed := 3 }

theorem holdingClass_ready (n : Nat) : (holdingClass n).ready 0 := ⟨rfl, rfl, rfl, rfl, rfl, rfl⟩

theorem test_hyp_ThrottleHoldsAndReleases :
    joined.ready (laneOf 0) ∧ (holdingClass 1).ready (laneOf 0)
      ∧ [(2 : Word)].length < 2 ∧ 7 < word [8, 0] 0 ∧ 1 < word [7, 2] 1
      ∧ word [2, 0] 0 = (2 : ClassNo).val ∧ word [2, 0] 1 = 0 ∧ word [2, 1] 1 = 1
      ∧ (joined.cls 2).row.mode ≠ .off ∧ (joined.cls 2).holding = false
      ∧ word [7, 0] 0 = (7 : ClassNo).val ∧ (joined.cls 7).row.mode = .off ∧ ((holdingClass 1).cls 2).holding = true :=
  ⟨withLane_ready _, holdingClass_ready 1, by decide +kernel⟩

theorem test_hyp_ClassTimersEnd :
    (joined.cls 7).row.mode = .off ∧ (joined.cls 2).row.mode ≠ .off ∧ (joined.cls 2).holding = false
      ∧ (∀ n ∈ [1, 2], ((holdingClass n).cls 2).row.mode ≠ .off ∧ ((holdingClass n).cls 2).holding = true)
      ∧ ((holdingClass 1).cls 2).holdsLeft = 1 ∧ 1 < ((holdingClass 2).cls 2).holdsLeft := by decide +kernel

theorem test_hyp_ReadFaultsAndClearFaults :
    let s := { managed with faults := logOf 8 }
    s.ready (laneOf 0) ∧ ([] : List Word).length < 1 ∧ 65535 < word [65536] 0 ∧ 1 ≤ [(0 : Word)].length
      ∧ word [65535] 0 ≤ 65535 ∧ word [0] 0 ≤ 65535 :=
  ⟨⟨rfl, rfl, rfl, rfl, rfl, rfl⟩, by decide +kernel⟩

theorem test_hyp_FullLogKeepsTheSevereRecords :
    let severe : FaultRecord := ⟨7, 0, { cause := .memTimeout }⟩
    let u := { logOf 7 with log := (logOf 7).log ++ [severe] }
    (logOf 7).log.length < 8 ∧ 8 ≤ u.log.length ∧ u.log = (logOf 6).log ++ crcRecord 6 :: [severe]
      ∧ (∀ f ∈ u.log, (crcRecord 6).rank ≤ f.rank) ∧ (∀ f ∈ [severe], (crcRecord 6).rank < f.rank)
      ∧ (crcRecord 6).rank < Cause.tagInUse.severity.rank ∧ 8 ≤ (logOf 8).log.length
      ∧ (∀ f ∈ (logOf 8).log, Cause.linkCrc.severity.rank ≤ f.rank) := by decide +kernel

/-- TAG_IN_USE goes to NOTIFY and suspends the lane; so many notices wait and so many records are logged. -/
def notifying (notices records : Nat) : State :=
  { joined with
    faults :=
      { logOf records with
        routes := managed.faults.routes.set 5 ⟨.notify, true⟩
        notices := List.replicate notices ⟨.role 0 1, false⟩ } }

theorem test_hyp_ReportsAreRoutedAndActedOn :
    let rep : Report := { cause := .tagInUse, lane := some 1 }
    let severe : State := { notifying 3 8 with faults := { (notifying 3 8).faults with
      log := List.replicate 8 ⟨7, 0, { cause := .memTimeout }⟩ } }
    let logged := fun s : State => s.faults.log.length < 8 ∨ ∃ f ∈ s.faults.log, f.rank < rep.cause.severity.rank
    let notified := fun s : State => (s.faults.routes[rep.cause.row]).route = .notify ∧ s.mgmt.claim = .claimed
    ((notifying 3 7).faults.routes[rep.cause.row]).suspend = true ∧ rep.lane = some 1
      ∧ ((notifying 3 7).lane 1).session = .active ∧ (joined.faults.routes[rep.cause.row]).suspend = false
      ∧ notified (notifying 3 7) ∧ (notifying 3 7).faults.notices.length < 4 ∧ logged (notifying 3 7)
      ∧ notified (notifying 3 8) ∧ logged (notifying 3 8)
      ∧ notified severe ∧ severe.faults.notices.length < 4 ∧ ¬logged severe ∧ severe.faults.log.getLast?.isSome
      ∧ notified (notifying 4 8) ∧ 4 ≤ (notifying 4 8).faults.notices.length ∧ ¬notified joined := by decide +kernel

/-- Id 5 reads for walk slot 0. -/
def walkInFlight (s : State) : State := s.setId 5 (.inUse (.walk 0) 900 ⟨.read, 0x8028, [0xFF], []⟩)

theorem not_atRest (s : State) : ¬(walkInFlight s).memoryAtRest := by
  intro h
  exact h.1 5 _ _ _ (setId_memId_self s 5 _)

/-- Every id QUARANTINED, and walk slot 0 READY for an index in range. -/
def quiet : State :=
  { configured with
    port := { configured.port with ids := Vector.replicate 16 .quarantined }
    xlat := { configured.xlat with walks := configured.xlat.walks.set 0 (some ⟨false, 63, [], false, 0⟩) } }

theorem quiet_atRest (stage : RestartStage) (o : Operation) : (withOp o (restarting stage quiet)).memoryAtRest := by
  refine ⟨fun i owner timer txn => ?_, fun w x h => ?_⟩
  · fin_cases i <;> exact fun h => IdState.noConfusion h
  · fin_cases w
    · cases h
      exact ⟨rfl, (by decide : 63 < 64), fun i => by fin_cases i <;> exact fun h => IdState.noConfusion h⟩
    · cases h

/-- No id IN_USE and no walk: the memory port is at rest whatever lane 1 holds. -/
theorem withLane_atRest (r : LaneState) : (withLane r).memoryAtRest := by
  refine ⟨fun i owner timer txn => ?_, fun w x h => ?_⟩
  · fin_cases i <;> exact fun h => IdState.noConfusion h
  · fin_cases w <;> cases h

theorem configured_atRest : configured.memoryAtRest :=
  let h := withLane_atRest (configured.lane 1)
  ⟨h.1, h.2⟩

/-- An ISSUED slot stays; lane 1 joined with QUEUED and COMPLETE slots alone, with the port at rest and at work; and every lane
DETACHED already. -/
theorem test_hyp_RestartBegins :
    let full := withLane (laneOne .active [issuedSlot .write []])
    let away := withLane (laneOne .suspended [{ slot 4 .write .complete [] [] with status := some .ok }, queuedRead])
    let goes := fun s : State => (∀ l, (s.lane l).session ≠ .detached → (s.lane l).drain ≠ .silent
      ∧ ∀ q ∈ (s.lane l).slots, q.stage ≠ .issued ∧ q.stage ≠ .sending) ∧ (s.lane 1).session ≠ .detached ∧ s.aloneInArea 1
    (full.ready (laneOf 0) ∧ DrainLaw full ∧ TagLaw full
        ∧ ∃ l, ∃ q ∈ (full.lane l).slots, (full.lane l).session ≠ .detached ∧ (q.stage = .issued ∨ q.stage = .sending))
      ∧ (away.ready (laneOf 0) ∧ DrainLaw away ∧ TagLaw away ∧ goes away ∧ away.memoryAtRest)
      ∧ ((walkInFlight away).ready (laneOf 0) ∧ DrainLaw (walkInFlight away) ∧ TagLaw (walkInFlight away)
        ∧ goes (walkInFlight away) ∧ ¬(walkInFlight away).memoryAtRest)
      ∧ (configured.ready (laneOf 0) ∧ DrainLaw configured ∧ TagLaw configured
        ∧ (∀ l, (configured.lane l).session = .detached) ∧ configured.memoryAtRest)
      ∧ (walkInFlight configured).ready (laneOf 0) ∧ DrainLaw (walkInFlight configured) ∧ TagLaw (walkInFlight configured)
      ∧ (∀ l, ((walkInFlight configured).lane l).session = .detached) ∧ ¬(walkInFlight configured).memoryAtRest :=
  ⟨⟨withLane_ready _, by decide +kernel⟩,
    ⟨withLane_ready _, by decide +kernel, by decide +kernel, by decide +kernel, withLane_atRest _⟩,
    ⟨⟨rfl, rfl, rfl, rfl, rfl, rfl⟩, by decide +kernel, by decide +kernel, by decide +kernel, not_atRest _⟩,
    ⟨configured_ready, by decide +kernel, by decide +kernel, by decide +kernel, configured_atRest⟩,
    ⟨rfl, rfl, rfl, rfl, rfl, rfl⟩, by decide +kernel, by decide +kernel, by decide +kernel, not_atRest _⟩

theorem test_hyp_RestartEndsWithTheFinalChange :
    let op : Operation := ⟨.restart, 0, 1, false⟩
    let gone := fun stage => withOp op (restarting stage quiet)
    joined.mgmt.stage ≠ .lanes ∧ joined.mgmt.stage ≠ .memory
      ∧ ((restarting .lanes joined).mgmt.stage = .lanes ∧ ¬∀ l, ((restarting .lanes joined).lane l).session = .detached)
      ∧ ((walkInFlight (restarting .lanes configured)).mgmt.stage = .lanes
        ∧ (∀ l, ((walkInFlight (restarting .lanes configured)).lane l).session = .detached)
        ∧ ¬(walkInFlight (restarting .lanes configured)).memoryAtRest)
      ∧ (∀ l, ((gone .lanes).lane l).session = .detached) ∧ (gone .lanes).mgmt.stage = .lanes
      ∧ (gone .memory).mgmt.stage = .memory ∧ (gone .memory).mgmt.op = some op ∧ (gone .memory).mgmt.forfeit = false
      ∧ (gone .memory).mgmt.reply = none ∧ ((gone .memory).replied 0 1 0x0F .done 0 []).mgmt.reply.isSome
      ∧ (withOp { op with ended := true } joined).mgmt.op = some { op with ended := true }
      ∧ (∀ o, joined.mgmt.op = some o → o.ended = false)
      ∧ (gone .lanes).memoryAtRest ∧ (gone .memory).memoryAtRest :=
  ⟨by decide, by decide, ⟨rfl, by decide +kernel⟩, ⟨rfl, by decide +kernel, not_atRest _⟩, by decide +kernel, rfl, rfl, rfl,
    rfl, rfl, rfl, rfl, fun _ h => (by cases h), quiet_atRest .lanes ⟨.restart, 0, 1, false⟩,
    quiet_atRest .memory ⟨.restart, 0, 1, false⟩⟩

theorem joined_accepts (tag : Tag) (length : BitVec 16) (h : 0 < length.toNat) (h' : length.toNat ≤ 256) :
    joined.accepting 1 tag 1 length :=
  ⟨rfl, by decide +kernel, rfl, rfl, rfl, h, h', by decide +revert, by decide +kernel⟩

theorem test_hyp_RequestIsRefusedByTheFirstCheck :
    let refused := fun (s : State) (tag : Tag) (number : Byte) (length : BitVec 16) (data : List Byte) (write : Bool) =>
      let r := s.lane 1
      firstCase
        [(decide (s.mgmt.stage ≠ .none), RefusalCode.notReady), (decide (r.session = .detached), .notJoined),
          (decide (number ≠ r.number), .staleSession), (decide (r.session = .suspended), .suspended),
          (decide (r.session = .draining), .draining),
          (decide (length.toNat = 0 ∨ 256 < length.toNat ∨ (write = true ∧ data.length ≠ length.toNat)), .badRequest),
          (decide (∃ q ∈ r.slots, q.tag = tag), .tagInUse),
          (decide (64 ≤ (allLanes.map fun k => (s.lane k).slots.length).sum), .tableFull),
          (write && decide (r.credit < (length.toNat + 63) / 64), .creditOverrun)]
    joined.link.state = .up ∧ joined.noClaimOf 1
      ∧ refused (restarting .lanes joined) 0 0 0 [] false = some .notReady
      ∧ refused configured 0 0 0 [] true = some .notJoined ∧ refused joined 0 0 0 [] false = some .staleSession
      ∧ refused (withLane (laneOne .suspended [])) 0 1 0 [] false = some .suspended
      ∧ refused (withLane (laneOne .draining [])) 0 1 0 [] true = some .draining
      ∧ refused joined 0 1 0 [] false = some .badRequest ∧ refused joined 0 1 257 [] false = some .badRequest
      ∧ refused joined 0 1 1 [] true = some .badRequest
      ∧ refused (withLane (laneOne .active [queuedRead])) 3 1 256 [] false = some .tagInUse
      ∧ refused (withLane (laneOne .active (List.replicate 64 queuedRead))) 4 1 1 [] false = some .tableFull
      ∧ refused (withLane { laneOne .active [] with credit := 0 }) 4 1 1 [0] true = some .creditOverrun
      ∧ refused (withLane (laneOne .active (List.replicate 63 queuedRead))) 4 1 1 [] false = none := by decide +kernel

/-- The row 0 of the ACTIVE copy protected; lane 1's row is not privileged. -/
def protectedRow : State :=
  { joined with
    windows := { joined.windows with active := windowRows.set 0 { windowRow 0 16 .direct with guarded := true } } }

/-- Row `i` is the lowest that admits a request of lane 1 (R55). -/
abbrev admits (s : State) (first : Nat) (i : Fin 24) : Prop :=
  (s.windows.active[i]).enabled = true ∧ (s.windows.active[i]).lanes.getLsbD 1 = true
    ∧ (s.windows.active[i]).base.toNat ≤ first
    ∧ first < (s.windows.active[i]).base.toNat + (s.windows.active[i]).pages * 4096

abbrev chosen (s : State) (first : Nat) (i : Fin 24) : Prop :=
  admits s first i ∧ ∀ j : Fin 24, j < i → ¬admits s first j

theorem test_hyp_TheLowestAdmittingRowDecides :
    let endOf := fun i : Fin 24 => (windowRows[i]).base.toNat + (windowRows[i]).pages * 4096
    (∀ j, ¬admits joined 0x21000 j)
      ∧ (chosen joined 0xFFFF 0 ∧ endOf 0 ≤ 0xFFFF + 2 - 1 ∧ 0xFFFF + 1 - 1 < endOf 0 ∧ (windowRows[0]).permitRead = true
        ∧ (windowRows[0]).guarded = false ∧ (windowRows[0]).kind = .direct)
      ∧ (chosen protectedRow 0 0 ∧ (protectedRow.windows.active[0]).guarded = true
        ∧ (protectedRow.agent 1).privileged = false)
      ∧ (chosen joined 0x10FF0 1 ∧ 0x10FF0 + 256 - 1 < endOf 1 ∧ (windowRows[1]).permitWrite = true
        ∧ (windowRows[1]).guarded = false ∧ (windowRows[1]).kind = .translated ∧ 0x10FF0 % 4096 + 16 ≤ 4096
        ∧ ¬0x10FF0 % 4096 + 17 ≤ 4096)
      ∧ chosen joined 0x20FFF 2 ∧ 0x20FFF + 1 - 1 < endOf 2 ∧ (windowRows[2]).kind = .sink := by
  refine ⟨?_, ?_, ?_, ?_, ?_⟩ <;> decide +kernel

theorem noWaiterOf_joined : joined.noWaiterOf 1 3 := by
  have none_ : ∀ v, joined.walk v = none := by decide +kernel
  refine ⟨fun v x h => ?_, fun e h => by cases h⟩
  rw [none_ v] at h
  cases h

theorem test_hyp_ReadIsAccepted :
    let at_ := fun (address : BitVec 32) => joined.decode ⟨1, 3, 1, .read, address, 1, []⟩
    joined.accepting (laneOf 1) 3 1 1 ∧ joined.accepting (laneOf 1) 3 1 256
      ∧ at_ 0xFFFF = .direct ⟨0, .direct, 1, some 15, some 100, none⟩ 0x73FFF
      ∧ at_ 0x20FFF = .sink ⟨2, .sink, 1, none, none, none⟩ ∧ at_ 0x21000 = .failed .noWindow .noWindow
      ∧ (joined.lane 1).slots = [] ∧ (joined.lane 1).stream = []
      ∧ (withLane (laneOne .active [queuedRead])).accepting (laneOf 1) 4 1 1
      ∧ ((withLane (laneOne .active [queuedRead])).lane 1).slots.head? = some queuedRead ∧ queuedRead.stage ≠ .complete
      ∧ joined.noWaiterOf 1 3 ∧ joined.xlat.waiting = [] :=
  ⟨joined_accepts 3 1 (by decide) (by decide), joined_accepts 3 256 (by decide) (by decide), by decide +kernel,
    by decide +kernel, by decide +kernel, rfl, rfl,
    ⟨rfl, by decide +kernel, rfl, rfl, rfl, by decide, by decide, by decide +kernel, by decide +kernel⟩,
    rfl, by decide, noWaiterOf_joined, rfl⟩

/-- A grant follows a SINK WRITE of 256 bytes that spends the whole credit, and none one of 64 bytes that leaves 7 of 8. -/
theorem test_hyp_WriteIsAccepted :
    let much := withLane { laneOne .active [] with credit := 8 }
    let granted := fun (s : State) (need : Nat) =>
      let area := s.area (s.agent 1).area
      let free := area.row.writeUnits - (area.writeOccupied + ((s.lane 1).credit - need))
      0 < free ∧ ((s.agent 1).quantum ≤ free ∨ (area.writeOccupied = 0 ∧ (s.lane 1).credit - need = 0))
    let data := List.replicate 256 (0xAB : Byte)
    joined.accepting (laneOf 1) 3 1 256 ∧ much.accepting (laneOf 1) 3 1 64 ∧ data.length = 256
      ∧ (256 + 63) / 64 ≤ (joined.lane 1).credit ∧ (joined.unitsOfWrite 1 256).length = 4
      ∧ (much.unitsOfWrite 1 64).length = 1
      ∧ joined.decode ⟨1, 3, 1, .write, 0x10, 256, data⟩ = .direct ⟨0, .direct, 1, some 0, some 100, none⟩ 0x64010
      ∧ joined.decode ⟨1, 3, 1, .write, 0x20000, 256, data⟩ = .sink ⟨2, .sink, 1, none, none, none⟩
      ∧ joined.decode ⟨1, 3, 1, .write, 0x20FFF, 256, data⟩ = .failed .windowSpan .windowSpan
      ∧ (joined.lane 1).slots = [] ∧ (joined.lane 1).stream = [] ∧ granted joined 4 ∧ ¬granted much 1 :=
  ⟨joined_accepts 3 256 (by decide) (by decide),
    ⟨rfl, by decide +kernel, rfl, rfl, rfl, by decide, by decide, by decide +kernel, by decide +kernel⟩, by decide +kernel⟩

/-- The cache holds one entry of index 5; walk slot `w` reads for index 6. -/
def translating (readable : Bool) (entries : Nat) (walk : Option (WalkNo × Walk)) : State :=
  { joined with
    portRow := { joined.portRow with entryCount := entries }
    xlat :=
      { joined.xlat with
        cache := [⟨5, 1, readable, true⟩]
        walks := match walk with
          | some x => joined.xlat.walks.set x.1 (some x.2)
          | none => joined.xlat.walks } }

theorem translating_accepts (b : Bool) (n : Nat) (w : Option (WalkNo × Walk)) :
    (translating b n w).accepting 1 3 1 16 :=
  let a := joined_accepts 3 16 (by decide) (by decide)
  ⟨a.up, a.noClaim, a.stage, a.active, a.number, a.notEmpty, a.fits, a.tagFree, a.room⟩

/-- A WRITE and a READ of 16 bytes in page 1 and of 100 bytes over the end of page 1, entry indexes 5 and 6, on states in which
each is beyond, a hit, denied, held by a walk slot, held by the waiting list, or held nowhere. -/
theorem test_hyp_LookupHitsMissesOrFails :
    let data := List.replicate 100 (7 : Byte)
    let capture : Capture := ⟨1, .translated, 1, some 1, none, some 4⟩
    let at_ := fun (s : State) (dir : Dir) (address : BitVec 32) (n : Nat) =>
      s.decode ⟨1, 3, 1, dir, address, n, if dir = .write then data.take n else []⟩
    let five : Piece := ⟨none, 16, .waiting, none, .pending, some 5⟩
    let holds := fun (s : State) (w : WalkNo) => (s.walk w).any fun x => x.index == 5
    let miss := fun (s : State) (i : Nat) => i < s.portRow.entryCount ∧ ∀ e ∈ s.xlat.cache, e.index ≠ i
    let empty := fun s : State => { s with xlat := { s.xlat with cache := [] } }
    let one : Walk := ⟨true, 5, [], false, 0⟩
    let two := empty (translating true 6 (some (1, one)))
    let other := empty (translating true 7 (some (0, { one with index := 9 })))
    let full : State := { other with xlat := { other.xlat with walks := other.xlat.walks.set 1 (some { one with index := 8 }) } }
    let listed : State := { full with xlat := { full.xlat with waiting := [⟨4, [⟨2, 1, false⟩]⟩, ⟨5, [⟨2, 2, false⟩]⟩] } }
    let bare := empty (translating true 7 none)
    (∀ b n w, (translating b n w).accepting (laneOf 1) 3 1 16 ∧ (translating b n w).accepting (laneOf 1) 3 1 100)
      ∧ (data.length = 100 ∧ (100 + 63) / 64 ≤ (bare.lane 1).credit ∧ (bare.unitsOfWrite 1 100).length = 2
        ∧ (bare.unitsOfWrite 1 16).length = 1)
      ∧ (∀ dir ∈ [Dir.read, .write], at_ bare dir 0x11000 16 = .translated capture [five]
          ∧ at_ bare dir 0x11FF0 100 = .translated capture [five, { five with length := 84, entry := some 6 }])
      ∧ ((translating true 5 none).portRow.entryCount ≤ 5 ∧ (translating true 6 none).portRow.entryCount ≤ 6)
      ∧ (∀ b, (translating b 6 none).xlat.cache.find? (fun e => e.index == 5) = some ⟨5, 1, b, true⟩)
      ∧ (miss two 5 ∧ two.walk 1 = some one ∧ one.index = 5 ∧ holds two 0 = false ∧ two.xlat.waiting = [])
      ∧ (miss other 5 ∧ (∀ w, holds other w = false) ∧ other.xlat.waiting = [] ∧ other.walk 1 = none ∧ other.walk 0 ≠ none)
      ∧ (miss full 5 ∧ (∀ w, holds full w = false) ∧ (∀ y ∈ full.xlat.waiting, y.index ≠ 5) ∧ ∀ w, full.walk w ≠ none)
      ∧ (miss listed 5 ∧ (∀ w, holds listed w = false) ∧ (∀ w, listed.walk w ≠ none)
        ∧ listed.xlat.waiting = [⟨4, [⟨2, 1, false⟩]⟩] ++ ⟨5, [⟨2, 2, false⟩]⟩ :: []
        ∧ ∀ y ∈ [(⟨4, [⟨2, 1, false⟩]⟩ : WaitingIndex)] ++ [], y.index ≠ 5)
      ∧ miss bare 5 ∧ miss bare 6 ∧ (∀ w, bare.walk w = none) ∧ bare.xlat.waiting = [] := by
  refine ⟨fun b n w => ⟨translating_accepts b n w, ?_⟩, ?_⟩
  · exact ⟨(translating_accepts b n w).up, (translating_accepts b n w).noClaim, rfl, rfl, rfl, by decide, by decide,
      (translating_accepts b n w).tagFree, (translating_accepts b n w).room⟩
  · refine ⟨?_, ?_, ?_, ?_, ?_, ?_, ?_, ?_, ?_⟩ <;> decide +kernel

/-- A queued READ in lane 1 alone, whose row has this priority, with this run. -/
def offering (p : Priority) (run : Option (Lane × Nat)) : State :=
  { withLane (laneOne .active [queuedRead]) with
    agents := configured.agents.set 1 { agentRow with priority := p }
    port := { configured.port with run := run } }

theorem offering_offers (p : Priority) (run : Option (Lane × Nat)) : (offering p run).offers 1 queuedRead := by
  have h : ∀ p, (offering p none).offers 1 queuedRead := by intro p; cases p <;> decide +kernel
  exact h p

theorem offering_alone (p : Priority) (run : Option (Lane × Nat)) (k : Lane) (q : Slot)
    (h : (offering p run).offers k q) : k = 1 := by
  have quiet : ∀ k : Lane, k ≠ 1 → ((withLane (laneOne .active [queuedRead])).lane k).session = .detached := by
    decide +kernel
  by_contra hk
  have h1 := h.1
  rw [show (offering p run).lane k = (withLane (laneOne .active [queuedRead])).lane k from rfl, quiet k hk] at h1
  simp at h1

theorem test_hyp_TheArbiterChoosesInOrder :
    let candidate := fun (s : State) (p : Priority) (k : Lane) => (s.agent k).priority = p ∧ ∃ q, s.offers k q
    let first := fun (s : State) (p : Priority) (last l : Lane) =>
      candidate s p l ∧ ∀ k, candidate s p k → lanesPast last l ≤ lanesPast last k
    first (offering .urgent none) .urgent 15 1
      ∧ (∀ run, (∀ k, ¬candidate (offering .normal run) .urgent k) ∧ candidate (offering .normal run) .normal 1
        ∧ first (offering .normal run) .normal 15 1)
      ∧ (offering .normal (some (1, 3))).port.run = some (1, 3) ∧ 3 < (offering .normal (some (1, 3))).portRow.tenure
      ∧ ¬4 < (offering .normal (some (1, 4))).portRow.tenure
      ∧ (offering .normal none).port.run = none
      ∧ (∀ k p, ¬candidate joined p k) := by
  have only : ∀ p run k q, (offering p run).offers k q → k = 1 := offering_alone
  refine ⟨⟨⟨rfl, _, offering_offers _ _⟩, ?_⟩, fun run => ⟨?_, ⟨rfl, _, offering_offers _ _⟩, ⟨rfl, _, offering_offers _ _⟩, ?_⟩,
    rfl, by decide +kernel, by decide +kernel, rfl, ?_⟩
  · rintro k ⟨_, q, hq⟩
    rw [only _ _ k q hq]
  · rintro k ⟨hk, q, hq⟩
    rw [only _ _ k q hq] at hk
    exact Priority.noConfusion hk
  · rintro k ⟨_, q, hq⟩
    rw [only _ _ k q hq]
  · rintro k p ⟨_, q, hq⟩
    have empty : ∀ k : Lane, (joined.lane k).slots = [] := by decide +kernel
    have h := hq.2.1
    simp [empty k] at h

/-- A class row of lane 1 with this mode, these counts and this threshold. -/
def charging (mode : Mode) (counted : Counted) (threshold : Nat) : State :=
  joined.setClass 2 { classTwo with row := { classTwo.row with mode := mode, counted := counted, threshold := threshold } }

theorem test_hyp_GrantsAreChargedToTheClass :
    let c := fun s : State => s.cls (s.agent 1).cls
    let counted := fun (s : State) (dir : Dir) => (c s).row.mode ≠ .off
      ∧ ((c s).row.counted = .both ∨ ((c s).row.counted = .reads ∧ dir = .read) ∨ ((c s).row.counted = .writes ∧ dir = .write))
    let crosses := fun (s : State) (n : Nat) =>
      (c s).windowCount < (c s).row.threshold ∧ (c s).row.threshold ≤ min ((c s).windowCount + n) 4294967295
    ¬counted (charging .off .both 6) .read ∧ ¬counted (charging .enforce .reads 6) .write
      ∧ counted (charging .monitor .reads 7) .read ∧ ¬crosses (charging .monitor .reads 7) 2
      ∧ counted (charging .enforce .both 4) .read ∧ ¬crosses (charging .enforce .both 4) 2
      ∧ counted (charging .monitor .writes 6) .write ∧ crosses (charging .monitor .writes 6) 2
      ∧ (c (charging .monitor .writes 6)).row.mode = .monitor
      ∧ counted (charging .enforce .both 6) .write ∧ crosses (charging .enforce .both 6) 2
      ∧ (c (charging .enforce .both 6)).row.mode = .enforce := by decide +kernel

/-- The first byte in the last place of a beat, the last byte in the first place of the third. -/
theorem test_hyp_BeatsCarryThePiece :
    0 < 10 ∧ [(1 : Beat), 2, 3].length = ((0x67 : MemAddr).toNat + 10 - 1) / 8 - (0x67 : MemAddr).toNat / 8 + 1
      ∧ (0x67 : MemAddr).toNat ≤ (0x67 / 8 + 0) * 8 + 7 ∧ (0x67 / 8 + 2) * 8 + 0 < (0x67 : MemAddr).toNat + 10 := by decide

/-- A queued READ of two pieces, 16 and 84 bytes, in lane 1. -/
def twoPieces : Slot :=
  slot 3 .read .queued [⟨some 0x1FF0, 16, .done, none, .pending, some 4⟩, ⟨some 0x3000, 84, .done, none, .pending, some 5⟩] []

theorem noReadyWalk_of (s : State) (h : ∀ w, s.walk w = none) : s.noReadyWalk :=
  fun w x hx => by rw [h w] at hx; cases hx

/-- Lane 1 offers two pieces with no id FREE, and holds a run of this count at this tenure. -/
def running (tenure count : Nat) : State :=
  let s := withLane (laneOne .active [twoPieces])
  { s with
    portRow := { s.portRow with tenure := tenure }
    port := { s.port with ids := Vector.replicate 16 .quarantined, run := some (1, count) } }

/-- A choice without a grant ends a run at its tenure and keeps one below it (R132, R135). -/
theorem test_grant_ends_run :
    (after (.grant []) (running 3 3)).port.run = none ∧ (after (.grant []) (running 4 3)).port.run = some (1, 3) := by
  decide +kernel

theorem test_hyp_AGrantIssuesEveryPiece :
    let s := withLane (laneOne .active [twoPieces])
    let none_ : State := { s with port := { s.port with ids := Vector.replicate 16 .quarantined } }
    let one := withLane (laneOne .active [slot 3 .write .queued [piece none] [⟨32, true⟩, ⟨33, true⟩]])
    let below := one.setClass 2 { classTwo with windowCount := 3 }
    let chosen := fun (s : State) (q : Slot) =>
      s.laneChoice = some (1, { s.port with lastNormal := 1, run := some (1, 1) }) ∧ s.offer 1 = some q
        ∧ (s.lane 1).tags.Nodup ∧ q.pieces.length ≤ 2
    s.noReadyWalk ∧ none_.noReadyWalk ∧ chosen s twoPieces ∧ chosen none_ twoPieces
      ∧ none_.freeIds.length < twoPieces.pieces.length ∧ none_.port.run = none ∧ (none_.agent 1).priority = .normal
      ∧ (running 4 3).port.run = some (1, 3) ∧ 3 < (running 4 3).portRow.tenure ∧ (running 4 3).offer 1 = some twoPieces
      ∧ (running 4 3).laneChoice.isSome
      ∧ (running 3 3).port.run = some (1, 3) ∧ ¬3 < (running 3 3).portRow.tenure ∧ (running 3 3).laneChoice.isSome
      ∧ [(5 : MemId), 9].length = twoPieces.pieces.length
      ∧ [(5 : MemId), 9].Nodup ∧ (∀ i ∈ [(5 : MemId), 9], s.memId i = .free)
      ∧ twoPieces.pieces.length ≤ s.freeIds.length ∧ ¬[(5 : MemId), 5].Nodup
      ∧ (chargeClass 1 .read 2 s).2 = [{ cause := .thresholdCrossed, cls := some 2 }]
      ∧ below.offer 1 = some (slot 3 .write .queued [piece none] [⟨32, true⟩, ⟨33, true⟩])
      ∧ (chargeClass 1 .write 2 below).2 = [] := by
  refine ⟨noReadyWalk_of _ (by decide +kernel), noReadyWalk_of _ (by decide +kernel), ?_⟩
  refine ⟨?_, ?_, ?_, ?_, ?_, ?_, ?_, ?_, ?_, ?_, ?_, ?_, ?_, ?_, ?_, ?_, ?_, ?_, ?_, ?_⟩ <;> decide +kernel

/-- A translating READ of lane 1. -/
def translatingSlot : Slot := slot 3 .read .translating [⟨none, 100, .waiting, none, .pending, some 5⟩] []

/-- A translating WRITE of lane 1 of two pieces, the lower DONE. -/
def translatingPair : Slot :=
  slot 4 .write .translating
    [⟨some 0x1FF0, 16, .done, none, .pending, some 4⟩, ⟨none, 84, .waiting, none, .pending, some 5⟩]
    [⟨32, true⟩, ⟨33, true⟩]

/-- Lane 1 with both of them. -/
def bothTranslating : State := withLane (laneOne .active [translatingSlot, translatingPair])

/-- Both of them wait, the READ first. -/
def bothWaiters : List PieceRef := [⟨1, 3, false⟩, ⟨1, 4, true⟩]

theorem bothWaiters_stand (s : State) (h : s.lane 1 = bothTranslating.lane 1) : s.waitersStand bothWaiters := by
  refine ⟨by decide, fun p hp => ?_⟩
  have two : p = ⟨1, 3, false⟩ ∨ p = ⟨1, 4, true⟩ := by simpa [bothWaiters] using hp
  rcases two with rfl | rfl
  · exact ⟨translatingSlot, _, by rw [h]; rfl, rfl, rfl, rfl⟩
  · exact ⟨translatingPair, _, by rw [h]; rfl, rfl, rfl, rfl⟩

/-- Both walk slots READY for these indexes, slot 1 the older and with these waiters; 64 entries, and an index waits. -/
def readyWalksOf (older younger : Nat) (ws : List PieceRef) (s : State) : State :=
  { s with
    xlat :=
      { s.xlat with
        walks := (s.xlat.walks.set 0 (some ⟨false, younger, [], false, 8⟩)).set 1 (some ⟨false, older, ws, false, 7⟩)
        waiting := [⟨7, [⟨2, 1, false⟩]⟩] } }

def readyWalks (older younger : Nat) : State := readyWalksOf older younger [] joined

theorem readyWalks_first (older younger : Nat) (ws : List PieceRef) (s : State) :
    (readyWalksOf older younger ws s).walkFirst 1 ⟨false, older, ws, false, 7⟩ := by
  refine ⟨by simp [State.walk, readyWalksOf], rfl, fun v y hv hy _ => ?_⟩
  fin_cases v
  · have h : y = ⟨false, younger, [], false, 8⟩ := by simpa [State.walk, readyWalksOf, eq_comm] using hy
    rw [h]
    exact (by decide : 7 < 8)
  · exact absurd rfl hv

theorem test_hyp_WalksAreGrantedFirst :
    let full : State := { readyWalks 63 9 with port := { joined.port with ids := Vector.replicate 16 .quarantined } }
    let held := readyWalksOf 64 9 bothWaiters bothTranslating
    (readyWalks 63 9).walkFirst 1 ⟨false, 63, [], false, 7⟩ ∧ 63 < (readyWalks 63 9).portRow.entryCount
      ∧ (readyWalks 63 9).memId 15 = .free ∧ (readyWalks 63 9).memId 0 = .free
      ∧ full.walkFirst 1 ⟨false, 63, [], false, 7⟩ ∧ (∀ i, full.memId i ≠ .free)
      ∧ (readyWalks 64 9).walkFirst 1 ⟨false, 64, [], false, 7⟩ ∧ (readyWalks 64 9).portRow.entryCount ≤ 64
      ∧ (readyWalks 64 9).mgmt.stage = .none ∧ (readyWalks 64 9).nextStands 1 []
      ∧ held.walkFirst 1 ⟨false, 64, bothWaiters, false, 7⟩ ∧ held.portRow.entryCount ≤ 64 ∧ held.mgmt.stage = .none
      ∧ held.waitersStand bothWaiters ∧ TagLaw held ∧ held.nextStands 1 bothWaiters
      ∧ (held.aloneInArea 1 ∧ (held.lane 1).slots.head? = some translatingSlot ∧ (held.lane 1).noAnswer)
      ∧ joined.noReadyWalk ∧ joined.laneChoice = none :=
  ⟨readyWalks_first _ _ _ _, by decide +kernel, by decide +kernel, by decide +kernel, readyWalks_first 63 9 [] joined,
    by decide +kernel, readyWalks_first _ _ _ _, by decide +kernel, rfl, by decide +kernel, readyWalks_first _ _ _ _,
    by decide +kernel, rfl, bothWaiters_stand _ rfl, by decide +kernel, by decide +kernel,
    ⟨by decide +kernel, by decide +kernel, fun _ h => (by cases h)⟩, noReadyWalk_of _ (by decide +kernel), by decide +kernel⟩

/-- A READ of two pieces: the lower has its outcome, the upper is in flight under id 5. -/
def upperInFlight : Slot :=
  slot 3 .read .issued [⟨some 0x1FF0, 16, .done, none, .ok, some 4⟩, ⟨some 0x3000, 84, .done, some 5, .pending, some 5⟩]
    [⟨40, true⟩, ⟨41, false⟩]

def upperState : State :=
  (withLane { laneOne .active [{ queuedRead with tag := 4 }, upperInFlight] with issued := 1 }).setId 5
    (.inUse (.piece ⟨1, 3, true⟩) 900 ⟨.read, 0x3000, pieceMasks 0x3000 84, []⟩)

theorem test_hyp_TheLastOutcomeCompletesTheSlot :
    let met := fun (s : State) (ref : PieceRef) (q : Slot) (p : Piece) =>
      (s.lane 1).slot? 3 = some q ∧ (s.lane 1).tags.Nodup ∧ q.stage = .issued
        ∧ q.pieces[if ref.upper then 1 else 0]? = some p ∧ (s.lane 1).drain ≠ .silent ∧ s.mgmt.stage = .none ∧ 0 < p.length
    let single := fun dir held => inFlight (laneOne .active [issuedSlot dir held]) dir
    let granted := fun (s : State) (units : Nat) =>
      let area := s.area (s.agent 1).area
      let free := area.row.writeUnits - (area.writeOccupied - units + (s.lane 1).credit)
      (s.lane 1).session = .active ∧ 0 < free
        ∧ ((s.agent 1).quantum ≤ free ∨ (area.writeOccupied - units = 0 ∧ (s.lane 1).credit = 0))
    (∀ dir held, (single dir held).memId 5 = .inUse (.piece ⟨1, 3, false⟩) 900 (transaction dir)
        ∧ (transaction dir).dir = (issuedSlot dir held).dir
        ∧ ∀ k (x : Piece), (issuedSlot dir held).pieces[k]? = some x → k ≠ 0 → x.status ≠ .pending)
      ∧ met (single .write [⟨32, true⟩, ⟨33, true⟩]) ⟨1, 3, false⟩ (issuedSlot .write [⟨32, true⟩, ⟨33, true⟩]) (piece (some 5))
      ∧ met (single .read [⟨40, false⟩, ⟨41, false⟩]) ⟨1, 3, false⟩ (issuedSlot .read [⟨40, false⟩, ⟨41, false⟩]) (piece (some 5))
      ∧ ((single .read []).lane 1).slots.head? = some (issuedSlot .read []) ∧ ((single .read []).lane 1).stream = []
      ∧ upperState.memId 5 = .inUse (.piece ⟨1, 3, true⟩) 900 ⟨.read, 0x3000, pieceMasks 0x3000 84, []⟩
      ∧ met upperState ⟨1, 3, true⟩ upperInFlight ⟨some 0x3000, 84, .done, some 5, .pending, some 5⟩
      ∧ (∀ k (x : Piece), upperInFlight.pieces[k]? = some x → k ≠ 1 → x.status ≠ .pending)
      ∧ (upperState.lane 1).slots.head? = some { queuedRead with tag := 4 } ∧ upperInFlight ≠ { queuedRead with tag := 4 }
      ∧ (upperInFlight.held.map (·.unit)).Nodup
      ∧ granted (single .write [⟨32, true⟩, ⟨33, true⟩]) 2 ∧ ¬granted (withLane { laneOne .active [] with credit := 7 }) 2 := by
  refine ⟨fun dir held => ⟨setId_memId_self _ 5 _, rfl, ?_⟩, by decide +kernel, by decide +kernel, by decide +kernel, rfl,
    setId_memId_self _ 5 _, by decide +kernel, ?_, by decide +kernel, by decide, by decide, by decide +kernel,
    by decide +kernel⟩
  · rintro (_ | k) x hx hk
    · exact absurd rfl hk
    · simp [issuedSlot, slot] at hx
  · rintro (_ | _ | k) x hx hk
    · cases hx
      decide
    · exact absurd rfl hk
    · simp [upperInFlight, slot] at hx

/-- The last outcome of a slot in DRAINING SILENT, alone in its list or before a discarded list's other ISSUED slot. -/
def silentInFlight (others : List Slot) : State :=
  inFlight { laneOne .draining (issuedSlot .write [] :: others) with drain := .silent } .write

def bothInFlight (upper : Bool) : State :=
  (withLane { laneOne .active [{ upperInFlight with pieces := [piece (some 5), piece (some 5)] }] with issued := 1 }).setId 5
    (.inUse (.piece ⟨1, 3, upper⟩) 900 (transaction .read))

theorem test_hyp_OutcomesThatAnswerNothing :
    let q : Slot := { upperInFlight with pieces := [piece (some 5), piece (some 5)] }
    let upper := ({ upperState.lane 1 with session := .draining, drain := .silent, slots := [upperInFlight] } : LaneState)
    let pair : State := upperState.setLane 1 upper
    (∀ upper, (bothInFlight upper).memId 5 = .inUse (.piece ⟨1, 3, upper⟩) 900 (transaction .read)
        ∧ ((bothInFlight upper).lane 1).slot? 3 = some q ∧ ((bothInFlight upper).lane 1).tags.Nodup)
      ∧ q.stage = .issued ∧ (∀ s ∈ [bothInFlight true, silentInFlight [], pair], s.mgmt.stage = .none)
      ∧ (∀ row ∈ [0, 1], q.pieces[row]? = some (piece (some 5)) ∧ q.pieces[1 - row]? = some (piece (some 5)))
      ∧ (piece (some 5)).status = .pending ∧ 0 < (piece (some 5)).length ∧ (transaction .read).dir = q.dir
      ∧ (∀ others, (silentInFlight others).memId 5 = .inUse (.piece ⟨1, 3, false⟩) 900 (transaction .write))
      ∧ (∀ others ∈ [[], [{ issuedSlot .write [] with tag := 4 }]],
          ((silentInFlight others).lane 1).slot? 3 = some (issuedSlot .write [])
            ∧ ((silentInFlight others).lane 1).tags.Nodup ∧ ((silentInFlight others).lane 1).session = .draining
            ∧ ((silentInFlight others).lane 1).drain = .silent
            ∧ ∀ x ∈ ((silentInFlight others).lane 1).slots, x.stage ≠ .complete)
      ∧ (issuedSlot .write []).pieces = [piece (some 5)] ∧ ((silentInFlight []).lane 1).slots = [issuedSlot .write []]
      ∧ (pair.memId 5 = .inUse (.piece ⟨1, 3, true⟩) 900 ⟨.read, 0x3000, pieceMasks 0x3000 84, []⟩
        ∧ (pair.lane 1).slot? 3 = some upperInFlight ∧ (pair.lane 1).tags.Nodup
        ∧ upperInFlight.pieces[1]? = some ⟨some 0x3000, 84, .done, some 5, .pending, some 5⟩
        ∧ upperInFlight.pieces.map (·.status) = [.ok, .pending]
        ∧ (pair.lane 1).session = .draining ∧ (pair.lane 1).drain = .silent
        ∧ ∀ x ∈ (pair.lane 1).slots, x.stage ≠ .complete) :=
  ⟨fun upper => ⟨setId_memId_self _ 5 _, by cases upper <;> decide +kernel, by cases upper <;> decide +kernel⟩, rfl,
    by decide +kernel, by decide +kernel, rfl, by decide, rfl, fun _ => setId_memId_self _ 5 _, by decide +kernel, rfl,
    by decide +kernel, setId_memId_self _ 5 _, by decide +kernel⟩

/-- RESTART in its stage LANES. -/
def lastOfRestart (s : State) : State := withOp ⟨.restart, 0, 1, false⟩ (restarting .lanes s)

theorem lastOfRestart_law : RestartLaw (lastOfRestart (silentInFlight [])) :=
  ⟨fun _ => ⟨⟨0, 1, rfl⟩, by decide +kernel⟩, fun _ => ⟨1, by decide +kernel⟩, (fun h => by cases h)⟩

theorem atRest_of {s : State} (ids : ∀ i, (s.memId i).isInUse = false) (walks : ∀ w, s.walk w = none) : s.memoryAtRest := by
  refine ⟨fun i _ _ _ h => ?_, fun w _ h => ?_⟩
  · have := ids i
    rw [h] at this
    cases this
  · rw [walks w] at h
    cases h

/-- The last slot of the last lane times out: the port rests; or a walk read is still in flight; and an event of another lane
leaves the stage. -/
theorem test_hyp_EventsCarryRestartOn :
    let s := lastOfRestart (silentInFlight [])
    let outside : State := { s with mgmt := { s.mgmt with stage := .none } }
    let t := after (.responseTimeout 5) outside
    let walk : IdState := .inUse (.walk 0) 900 ⟨.read, 0x8028, [0xFF], []⟩
    s.mgmt.stage ≠ .none ∧ RestartLaw s ∧ eventOfRestart (.responseTimeout 5) ∧ eventOfRestart (.laneDetached 2)
      ∧ ((after (.laneDetached 2) outside).lane 1).session ≠ .detached
      ∧ (∀ l, (t.lane l).session = .detached) ∧ t.memoryAtRest ∧ s.mgmt.op = some ⟨.restart, 0, 1, false⟩
      ∧ t.mgmt.forfeit = false ∧ t.mgmt.reply = none
      ∧ (∀ l, ((after (.responseTimeout 5) (outside.setId 6 walk)).lane l).session = .detached)
      ∧ (after (.responseTimeout 5) (outside.setId 6 walk)).memId 6 = walk :=
  ⟨by decide, lastOfRestart_law, .inr (.inr (.inr (.inl ⟨5, rfl⟩))), .inl ⟨2, rfl⟩, by decide +kernel, by decide +kernel,
    atRest_of (by decide +kernel) (by decide +kernel), rfl, by decide +kernel, by decide +kernel, by decide +kernel,
    by decide +kernel⟩

/-- The last outcome of the last lane ends RESTART in its own change. -/
theorem test_restart_ends_at_the_last_outcome :
    let t := after (.responseTimeout 5) (lastOfRestart (silentInFlight []))
    t.mgmt.stage = .none ∧ t.mgmt.restarts = 1 ∧ t.mgmt.op = none ∧ t.mgmt.reply.map (·.code) = some 0x0E
      ∧ t.memId 5 = .free := by decide +kernel

/-- The last outcome of the lane that a SESSION RESET waits on ends it. -/
theorem test_reset_ends_at_the_last_outcome :
    let t := after (.responseTimeout 5) (withOp ⟨.sessionReset 1, 0, 1, false⟩ (silentInFlight []))
    t.mgmt.op = none ∧ t.mgmt.reply.map (·.code) = some 0x09 := by decide +kernel

theorem test_hyp_LateResponsesAreDiscarded :
    joined.memId 15 = .free ∧ (joined.setId 0 .quarantined).memId 0 = .quarantined
      ∧ RestartLaw (joined.setId 0 .quarantined) ∧ RestartLaw (lastOfRestart (silentInFlight [])) :=
  ⟨by decide +kernel, by decide +kernel,
    restartLaw_of_stage_none rfl, lastOfRestart_law⟩

/-- Walk slot 0 READING for index 5 under id 5. -/
def reading (stale : Bool) (waiters : List PieceRef) (s : State) : State :=
  walkInFlight { s with xlat := { s.xlat with walks := s.xlat.walks.set 0 (some ⟨true, 5, waiters, stale, 0⟩) } }

theorem test_hyp_WalkOutcomesInstallFailOrReadAgain :
    let listed : State :=
      { joined with
        xlat :=
          { joined.xlat with
            walks := joined.xlat.walks.set 1 (some ⟨false, 8, [], false, 1⟩)
            waiting := [⟨7, [⟨2, 1, false⟩]⟩] } }
    (∀ stale, ∀ s ∈ [joined, listed], (reading stale [] s).memId 5 = .inUse (.walk 0) 900 ⟨.read, 0x8028, [0xFF], []⟩
        ∧ (reading stale [] s).walk 0 = some ⟨true, 5, [], stale, 0⟩ ∧ (reading stale [] s).mgmt.stage = .none
        ∧ (reading stale [] s).nextStands 0 [])
      ∧ (0x5006 : Beat).getLsbD 0 = false ∧ (0x5007 : Beat).getLsbD 0 = true := by
  decide +kernel

/-- A READ of one piece and the upper piece of a WRITE wait, for each value of the bits valid, readable and writable. -/
theorem test_hyp_WaitersAreSettledByTheirWalk :
    let s := reading false bothWaiters bothTranslating
    s.memId 5 = .inUse (.walk 0) 900 ⟨.read, 0x8028, [0xFF], []⟩ ∧ s.walk 0 = some ⟨true, 5, bothWaiters, false, 0⟩
      ∧ s.waitersStand bothWaiters ∧ s.mgmt.stage = .none ∧ TagLaw s ∧ s.nextStands 0 bothWaiters
      ∧ (s.lane 1).slot? 3 = some translatingSlot ∧ (s.lane 1).slot? 4 = some translatingPair
      ∧ (s.lane 1).slots.head? = some translatingSlot ∧ (s.lane 1).stream = []
      ∧ translatingSlot.dir = .read ∧ translatingPair.dir = .write
      ∧ ((0x5003 : Beat).getLsbD 0 = true ∧ (0x5003 : Beat).getLsbD 1 = true ∧ (0x5003 : Beat).getLsbD 2 = false)
      ∧ ((0x5005 : Beat).getLsbD 0 = true ∧ (0x5005 : Beat).getLsbD 1 = false ∧ (0x5005 : Beat).getLsbD 2 = true)
      ∧ (0x5006 : Beat).getLsbD 0 = false ∧ s.aloneInArea 1
      ∧ s.creditAfter 1 [translatingPair] = (8, some 4) ∧ s.creditAfter 1 [translatingSlot] = (4, none) :=
  ⟨setId_memId_self _ 5 _, rfl, bothWaiters_stand _ rfl, rfl, by decide +kernel⟩

/-- Lane 1's CREDIT waits, and nothing else. -/
def creditWaits : State := withLane { laneOne .active [] with creditWaiting := some 4 }

def withNotice (s : State) : State := { s with faults := { s.faults with notices := [⟨.role 0 1, true⟩] } }

theorem test_hyp_TheFirstEligibleItemStarts :
    let free := fun s : State => s.link.state = .up ∧ s.link.tx = none ∧ s.mgmt.reply = none
    let eligible := fun (s : State) (l : Lane) => (s.lane l).session = .active ∧ (s.lane l).joinReplySent = true
      ∧ (s.lane l).creditWaiting.isSome
    let tx : Transmission := ⟨.notice, agentParcel 0 0 0 0 0 0 []⟩
    let refused : State := { joined with link := { joined.link with refusals := [⟨1, 3, 1, .tagInUse, 0x10⟩] } }
    State.reset.link.state ≠ .up ∧ { joined.link with tx := some tx }.tx.isSome
      ∧ (managed.replied 0 1 0x0F .done 0 []).link.state = .up ∧ (managed.replied 0 1 0x0F .done 0 []).link.tx = none
      ∧ (managed.replied 0 1 0x0F .done 0 []).mgmt.reply.isSome
      ∧ free (withNotice managed) ∧ managed.mgmt.claim = .claimed ∧ managed.mgmt.manager = some 0
      ∧ (withNotice managed).faults.notices = [⟨.role 0 1, true⟩]
      ∧ free (withNotice up) ∧ (withNotice up).mgmt.claim ≠ .claimed
      ∧ free refused ∧ refused.faults.notices = [] ∧ refused.link.refusals = [⟨1, 3, 1, .tagInUse, 0x10⟩]
      ∧ free creditWaits ∧ creditWaits.faults.notices = [] ∧ creditWaits.link.refusals = [] ∧ eligible creditWaits 1
      ∧ (creditWaits.lane 1).creditWaiting = some 4
      ∧ (∀ k, eligible creditWaits k → lanesPast 15 1 ≤ lanesPast 15 k) ∧ creditWaits.link.lastCredit = 15
      ∧ free joined ∧ (∀ l, ¬eligible joined l) ∧ (∀ l, (joined.lane l).stream = []) := by decide +kernel

/-- Lane 1's stream holds this item alone. -/
def streaming (x : StreamItem) (slots : List Slot) : State := withLane { laneOne .active slots with stream := [x] }

def answered (dir : Dir) (status : RespStatus) (kind : WindowKind) : Slot :=
  { slot 3 dir .complete [] [⟨40, true⟩, ⟨41, true⟩] with status := some status, capture := some ⟨0, kind, 1, none, none, none⟩ }

theorem test_hyp_TheOldestStreamItemStarts :
    let free := fun s : State => s.link.state = .up ∧ s.link.tx = none ∧ s.mgmt.reply = none ∧ s.faults.notices = []
      ∧ s.link.refusals = []
      ∧ (∀ k, (s.lane k).session = .active → (s.lane k).joinReplySent = true → (s.lane k).creditWaiting = none)
      ∧ ∀ k, (s.lane k).stream ≠ [] → lanesPast s.link.lastStream 1 ≤ lanesPast s.link.lastStream k
    (∀ x ∈ [StreamItem.joinReply .ok 5 1, .leaveReply .staleSession 5 1, .closing 6 1],
        free (streaming x []) ∧ ((streaming x []).lane 1).stream = [x])
      ∧ (∀ q ∈ [answered .read .ok .direct, answered .read .corrected .sink, answered .read .denied .direct,
            answered .write .ok .direct],
          free (streaming (.answer 3) [q]) ∧ ((streaming (.answer 3) [q]).lane 1).stream = [.answer 3]
            ∧ ((streaming (.answer 3) [q]).lane 1).slot? 3 = some q ∧ q.status.isSome
            ∧ ((streaming (.answer 3) [q]).lane 1).tags.Nodup)
      ∧ (answered .read .ok .direct).held[99 / 64]? = some ⟨41, true⟩ := by decide +kernel

theorem test_hyp_TheEndedItemLeavesItsSource :
    let item := fun x slots => ((streaming x slots).lane 1).stream
    let drain := fun kind (slots : List Slot) => ({ laneOne .draining slots with
      drain := kind, closingOwed := if kind = .answered then some 6 else none, stream := [.answer 3] } : LaneState)
    let next : Slot := { answered .write .cancelled .direct with tag := 4 }
    let done := { answered .read .ok .direct with stage := .sending }
    let met := fun s : State => (s.lane 1).stream = [.answer done.tag] ∧ (s.lane 1).slots.head? = some done
      ∧ (s.lane 1).tags.Nodup ∧ s.mgmt.stage = .none ∧ s.mgmt.op = none
    let ack := { answered .write .ok .direct with stage := .sending, held := [] }
    joined.link.tx = none ∧ joined.mgmt.op = none ∧ (withOp ⟨.restart, 0, 1, true⟩ joined).mgmt.op = some ⟨.restart, 0, 1, true⟩
      ∧ (withOp ⟨.sessionReset 2, 0, 1, false⟩ joined).mgmt.op = some ⟨.sessionReset 2, 0, 1, false⟩
      ∧ joined.mgmt.forfeit = false ∧ item (.joinReply .ok 5 1) [] = [.joinReply .ok 5 1]
      ∧ item (.leaveReply .draining 5 1) [] = [.leaveReply .draining 5 1] ∧ item (.closing 5 1) [] = [.closing 5 1]
      ∧ done.dir = .read ∧ (∀ u ∈ done.held, u.filled = true)
      ∧ (ack.dir = .write ∧ (∀ u ∈ ack.held, u.filled = true) ∧ item (.answer ack.tag) [ack, next] = [.answer ack.tag]
        ∧ ((streaming (.answer ack.tag) [ack, next]).lane 1).tags.Nodup)
      ∧ met (streaming (.answer 3) [done, next]) ∧ next.stage = .complete
      ∧ met (streaming (.answer 3) [done, { next with stage := .issued }])
      ∧ met (withLane (drain .silent [done])) ∧ met (withLane (drain .answered [done]))
      ∧ ((withLane (drain .answered [done])).lane 1).closingOwed = some 6 := by
  decide +kernel

/-- For AlertFollowsTheLog, TheRoleAndTheDownLinkStaySound, CapacitiesAndStorageStaySound, ListsDrainsAndClassesStaySound
and SessionNumbersChangeAtJoinAlone: a step that takes a JOIN of lane 1, from a state that keeps every law. -/
def beforeJoin : State := { configured with pending := [.join 1 5 101] }

theorem step_beforeJoin : step beforeJoin = .next (after (.join 1 5 101) configured) := rfl

theorem test_hyp_laws :
    (AlertFollowsLog beforeJoin ∧ RoleLaw beforeJoin ∧ DownLaw beforeJoin ∧ WithinCapacity beforeJoin
      ∧ StagingCanonical beforeJoin ∧ TagLaw beforeJoin ∧ DrainLaw beforeJoin ∧ OpenLaw beforeJoin ∧ IndexLaw beforeJoin
      ∧ ((after (.join 1 5 101) configured).lane 1).number = (beforeJoin.lane 1).number + 1)
      ∧ DrainingLaw beforeJoin ∧ RestartLaw beforeJoin ∧ ResetLaw beforeJoin :=
  ⟨by decide +kernel, by decide +kernel, restartLaw_of_stage_none rfl, fun _ _ _ h => (by cases h)⟩

/-- The laws of an operation in progress, with those they rest on, where one is, and a step from there. -/
theorem test_hyp_laws_in_progress :
    let restart := { lastOfRestart (silentInFlight []) with pending := [.responseTimeout 5] }
    let reset := { withOp ⟨.sessionReset 1, 0, 1, false⟩ (silentInFlight []) with pending := [.responseTimeout 5] }
    DrainLaw restart ∧ DrainingLaw restart ∧ RestartLaw restart ∧ ResetLaw restart ∧ (∃ t, step restart = .next t)
      ∧ DrainLaw reset ∧ DrainingLaw reset ∧ RestartLaw reset ∧ ResetLaw reset ∧ ∃ t, step reset = .next t := by
  refine ⟨by decide +kernel, by decide +kernel, lastOfRestart_law, fun _ _ _ h => (by cases h), ⟨_, rfl⟩,
    by decide +kernel, by decide +kernel, restartLaw_of_stage_none rfl, fun l m tag h => ?_, ⟨_, rfl⟩⟩
  cases h
  decide +kernel

/-- Lane 1 with a READ in flight under id 5, a WRITE that waits on walk slot 0 and an answer in transmission, and a step that
takes the response to the READ: every account is exact. -/
def inAccount : State :=
  let head := { slot 2 .read .sending [] [⟨42, true⟩, ⟨43, true⟩] with status := some .ok }
  let write := { translatingPair with pieces := [⟨none, 100, .waiting, none, .pending, some 5⟩] }
  let lane := ({ laneOne .active [head, issuedSlot .read [⟨40, false⟩, ⟨41, false⟩], write] with
    issued := 1, stream := [.answer 2] } : LaneState)
  let s := (withLane lane).setId 5 (.inUse (.piece ⟨1, 3, false⟩) 900 (transaction .read))
  { s with
    pending := [.memoryResponse 5 .ok []]
    areas := configured.areas.set 1 ⟨⟨true, 32, 8, 8⟩, 2, 2, 2⟩
    xlat := { s.xlat with walks := s.xlat.walks.set 0 (some ⟨false, 5, [⟨1, 4, false⟩], false, 0⟩) }
    link := { s.link with tx := some ⟨.stream 1, agentParcel 0 0 0 0 0 0 []⟩ } }

theorem test_hyp_TheAccountsStayExact :
    AccountLaw inAccount ∧ ∃ t, step inAccount = .next t :=
  ⟨⟨by decide +kernel, by decide +kernel, by decide +kernel, by decide +kernel, by decide +kernel, by decide +kernel,
    by decide +kernel, by decide +kernel, by decide +kernel⟩, _, rfl⟩

theorem test_hyp_TheLockHoldsUntilLineReset :
    let s := { lockedPart with pending := [.commit 0 1] }
    LockedWindows s ∧ s.mgmt.locked = true ∧ (∀ straps rest, s.pending ≠ .lineReset straps :: rest)
      ∧ step s = .next (after (.commit 0 1) lockedPart) :=
  ⟨by decide +kernel, rfl, fun _ _ h => Instr.noConfusion (List.cons.inj h).1, rfl⟩

end Sys2Proof.Tests
end

section
/-! The family of the agent sessions, first part: what the management engine and the session manager answer, cited by the
statements of JOIN, LEAVE, the SESSION operations, the tables and line reset. -/

namespace Sys2Proof.Machine

/-! ### Records replaced -/

theorem updLane_eq_setLane (s : State) (l : Lane) (f : LaneState → LaneState) :
    s.updLane l f = s.setLane l (f (s.lane l)) := rfl

@[simp] theorem setLane_lane_self (s : State) (l : Lane) (r : LaneState) : (s.setLane l r).lane l = r :=
  updLane_lane_self s l fun _ => r

theorem setLane_lane_ne (s : State) {l k : Lane} (r : LaneState) (h : k ≠ l) : (s.setLane l r).lane k = s.lane k :=
  updLane_lane_ne s (fun _ => r) h

/-- A record replaced by itself. -/
@[simp] theorem setLane_lane_eq (s : State) (l : Lane) : s.setLane l (s.lane l) = s := by
  simp [State.setLane, State.lane]

@[simp] theorem setLane_setLane (s : State) (l : Lane) (r p : LaneState) :
    (s.setLane l r).setLane l p = s.setLane l p := by
  simp [State.setLane]

/-! ### Parcels of the session manager (R10, R157, R174) -/

theorem sessionParcel_of_busy {l : Lane} {act : State → State} {s : State} (up : s.link.state = .up)
    (claim : s.noClaimOf l) (busy : (s.lane l).immediateBusy = true) :
    sessionParcel l act s = report { cause := .refusalLost, lane := some l } s := by
  simp [sessionParcel, (linkUp_iff s).2 up, abandonClaim_of_noClaimOf claim, busy]

theorem sessionParcel_of_free {l : Lane} {act : State → State} {s : State} (up : s.link.state = .up)
    (claim : s.noClaimOf l) (free : (s.lane l).immediateBusy = false) : sessionParcel l act s = act s := by
  simp [sessionParcel, (linkUp_iff s).2 up, abandonClaim_of_noClaimOf claim, free]

theorem handItem_eq_setLane (l : Lane) (x : StreamItem) (s : State) :
    handItem l x s = s.setLane l ((s.lane l).handed x) := rfl

/-! ### JOIN (R6, R7, R9) -/

theorem restarting_of_stage {s : State} (h : s.mgmt.stage ≠ .none) : s.restarting = true := by
  simpa [State.restarting] using h

/-- The three conditions of R6. -/
theorem joinAccepts_iff (s : State) (l : Lane) (identifier : BitVec 64) :
    s.joinAccepts l identifier = true ↔
      (s.agent l).enabled = true ∧ (s.agent l).identifier = identifier ∧ (s.area (s.agent l).area).row.enabled = true := by
  simp [State.joinAccepts, State.laneArea, and_assoc]

/-- A lane that is granted credit with nothing occupied and nothing committed is given its whole write share (R102). -/
theorem grantRule_of_empty {l : Lane} {s : State} (active : (s.lane l).session = .active)
    (room : 0 < (s.laneArea l).row.writeUnits) (occupied : (s.laneArea l).writeOccupied = 0)
    (credit : (s.lane l).credit = 0) :
    grantRule l s = s.setLane l
      { s.lane l with
        credit := (s.laneArea l).row.writeUnits
        creditWaiting := some ((s.lane l).creditWaiting.getD 0 + (s.laneArea l).row.writeUnits) } := by
  have free : s.ungranted l = (s.laneArea l).row.writeUnits := by simp [State.ungranted, occupied, credit]
  have due : s.grantDue l = true := by simp [State.grantDue, active, free, room, occupied, credit]
  rw [grantRule, if_pos due, updLane_eq_setLane, free, credit, Nat.zero_add]

/-- An accepted JOIN of a lane without credit in an area where nothing is occupied (R6, R9, R102). -/
theorem takeJoin_of_accepted {l : Lane} {tag : Tag} {identifier : BitVec 64} {s : State} (stage : s.mgmt.stage = .none)
    (detached : (s.lane l).session = .detached) (accepts : s.joinAccepts l identifier = true)
    (occupied : (s.laneArea l).writeOccupied = 0) (credit : (s.lane l).credit = 0)
    (room : 0 < (s.laneArea l).row.writeUnits) :
    takeJoin l tag identifier s = s.setLane l
      { (s.lane l).join tag with
        credit := (s.laneArea l).row.writeUnits
        creditWaiting := some ((s.lane l).creditWaiting.getD 0 + (s.laneArea l).row.writeUnits) } := by
  have joined : takeJoin l tag identifier s = grantRule l (s.setLane l ((s.lane l).join tag)) := by
    simp [takeJoin, (restarting_iff s).2 stage, detached, accepts, updLane_eq_setLane]
  have lane := setLane_lane_self s l ((s.lane l).join tag)
  rw [joined, grantRule_of_empty (s := s.setLane l ((s.lane l).join tag)) (by rw [lane]; rfl) room occupied
    (by rw [lane]; exact credit), lane, setLane_setLane]
  rfl

end Sys2Proof.Machine

open Sys2Proof Sys2Proof.Machine in
/-- Settles O8, by the cases of `takeJoin` once the parcel has met no waiting reply. -/
theorem joinIsAnswered : Obligations.JoinIsAnswered := by
  intro lane tag identifier s l r row area answered run up claim
  refine ⟨fun busy => congrArg Host.Outcome.next (sessionParcel_of_busy up claim busy), fun free => ?_⟩
  have ran : run = .next (takeJoin l tag identifier s) :=
    congrArg Host.Outcome.next (sessionParcel_of_free up claim free)
  rw [ran]
  refine ⟨fun stage => ?_, fun stage joined => ?_, fun stage detached => ⟨fun refused => ?_, ?_⟩⟩
  · simp [takeJoin, restarting_of_stage stage, handItem_eq_setLane, answered, r]
  · have : (s.lane l).session ≠ .detached := joined
    simp [takeJoin, (restarting_iff s).2 stage, this, handItem_eq_setLane, answered, r]
  · have rejects : s.joinAccepts l identifier = false := by
      rw [Bool.eq_false_iff, Ne, joinAccepts_iff]
      rintro ⟨h1, h2, h3⟩
      rcases refused with h | h | h
      · exact absurd (h1.symm.trans h) (by decide)
      · exact h h2
      · exact absurd (h3.symm.trans h) (by decide)
    have : (s.lane l).session = .detached := detached
    simp [takeJoin, (restarting_iff s).2 stage, this, rejects, handItem_eq_setLane, answered, r]
  · intro enabled same share occupied credit waiting room
    have accepts : s.joinAccepts l identifier = true := (joinAccepts_iff s l identifier).2 ⟨enabled, same, share⟩
    rw [takeJoin_of_accepted stage detached accepts occupied credit room]
    have none_ : (s.lane l).creditWaiting = none := waiting
    simp [none_, LaneState.join, State.laneArea, r, area, row]

open Sys2Proof Sys2Proof.Machine in
/-- Settles O3: every block's values after line reset, read off the definitions. -/
theorem lineResetEveryBlock : Obligations.LineResetEveryBlock := by
  refine ⟨fun straps s => ?_, fun s => rfl⟩
  have routes : RouteRow.reset =
      Vector.ofFn fun i => ⟨if (causeOfRow i).severity = .severe then .line else .silent, false⟩ := by decide
  show Host.Outcome.next _ = _
  rw [← routes]
  rfl

namespace Sys2Proof.Machine

/-! ### SESSION SUSPEND and SESSION RESUME (R13, R15) -/

/-- A SESSION payload that step 6 of R155 takes. -/
theorem sessionBad_eq_false {ws : List Word} {l : Lane} (two : 2 ≤ ws.length) (lane : word ws 0 = l.val)
    (action : word ws 1 ≤ 2) : sessionBad ws = false := by
  have h0 : wordAt ws 0 = l.val := lane
  have h1 : wordAt ws 1 ≤ 2 := action
  have := l.isLt
  simp [sessionBad, h0]
  omega

/-- The lane operand of a payload that names a lane. -/
theorem laneAt_eq {ws : List Word} {k : Nat} {l : Lane} (lane : word ws k = l.val) : laneAt ws k = l := by
  have h : wordAt ws k = l.val := lane
  rw [laneAt, h]
  exact Fin.ext (Nat.mod_eq_of_lt l.isLt)

theorem suspendLane_of_active {l : Lane} {s : State} (h : (s.lane l).session = .active) :
    suspendLane l s = s.setLane l { s.lane l with session := .suspended } := by
  simp [suspendLane, h, updLane_eq_setLane]

/-- A SESSION operation of the manager runs on its lane operand. -/
theorem takeMgmt_session {rq : MgmtRequest} {run : Lane → State → State} {ws : List Word} {l : Lane} {s : State}
    (ready : s.ready rq.lane) (two : 2 ≤ ws.length) (lane : word ws 0 = l.val) (action : word ws 1 ≤ 2) :
    takeMgmt rq (sessionBad ws) (run (laneAt ws 0)) s = run l s.taken := by
  rw [sessionBad_eq_false two lane action, laneAt_eq lane, takeMgmt_ready ready]

end Sys2Proof.Machine

open Sys2Proof Sys2Proof.Machine in
/-- Settles O11: the engine runs the operation on the lane operand, and the operation looks at the session state. -/
theorem suspendAndResume : Obligations.SuspendAndResume := by
  intro lane tag ws l s m r ready two operand
  constructor
  · intro action
    have ran : exec (.sessionSuspend lane tag ws) s = .next (sessionSuspend ⟨m, tag, 0x09⟩ l s.taken) :=
      congrArg Host.Outcome.next (takeMgmt_session (run := sessionSuspend ⟨m, tag, 0x09⟩) ready two operand (by omega))
    rw [ran]
    refine ⟨fun active => ?_, fun other => ?_⟩
    · have active : (s.lane l).session = .active := active
      simp [sessionSuspend, suspendLane_of_active (s := s.taken) active, active, replyPlain_eq, r]
    · have other : (s.lane l).session ≠ .active := other
      simp [sessionSuspend, other, replyPlain_eq]
  · intro action
    have ran : exec (.sessionResume lane tag ws) s = .next (sessionResume ⟨m, tag, 0x09⟩ l s.taken) :=
      congrArg Host.Outcome.next (takeMgmt_session (run := sessionResume ⟨m, tag, 0x09⟩) ready two operand (by omega))
    rw [ran]
    refine ⟨fun suspended => ?_, fun other => ?_⟩
    · have suspended : (s.lane l).session = .suspended := suspended
      simp [sessionResume, suspended, replyPlain_eq, updLane_eq_setLane, r]
    · have other : (s.lane l).session ≠ .suspended := other
      simp [sessionResume, other, replyPlain_eq]
end

section
/-! The family of the agent sessions: READ_ROW and LOAD_ROW of an agent row. -/

namespace Sys2Proof.Machine

/-! ### READ_ROW (R155, R164) -/

theorem rowBelow_of_le {n row : Nat} (words : Fin n → List Word) (h : n ≤ row) : rowBelow n row words = .badRow :=
  dif_neg (Nat.not_lt.2 h)

@[simp] theorem rowBelow_val {n : Nat} (words : Fin n → List Word) (i : Fin n) :
    rowBelow n i.val words = .row (words i) := dif_pos i.isLt

/-- A READ_ROW of the manager with its two operands is answered from the table as it stands. -/
theorem readRow_ready {lane : Byte} {tag : Tag} {ws : List Word} {s : State} (ready : s.ready (laneOf lane))
    (two : 2 ≤ ws.length) :
    exec (.readRow lane tag ws) s = .next (readRow ⟨laneOf lane, tag, 0x05⟩ ws s.taken) := by
  have good : rowBad ws = false := by simp [rowBad]; omega
  show Host.Outcome.next (takeMgmt ⟨laneOf lane, tag, 0x05⟩ (rowBad ws) _ s) = _
  rw [good, takeMgmt_ready (rq := ⟨laneOf lane, tag, 0x05⟩) ready]

/-- What READ_ROW answers, from what the table holds at the row. -/
theorem readRow_answer {lane : Byte} {tag : Tag} {ws : List Word} {s : State} (ready : s.ready (laneOf lane))
    (two : 2 ≤ ws.length) {found : RowRead} (h : s.taken.readTable (word ws 0) (word ws 1) = found) :
    exec (.readRow lane tag ws) s = .next (match found with
      | .badTable => s.taken.replied (laneOf lane) tag 0x05 .badTable 0 []
      | .badRow => s.taken.replied (laneOf lane) tag 0x05 .badRow 0 []
      | .row words => s.taken.replied (laneOf lane) tag 0x05 .done 0 words) := by
  rw [readRow_ready ready two]
  have h : s.taken.readTable (wordAt ws 0) (wordAt ws 1) = found := h
  unfold readRow
  rw [h]
  cases found <;> rfl

theorem readTable_above (s : State) {table : Nat} (row : Nat) (h : 7 < table) : s.readTable table row = .badTable := by
  obtain ⟨n, rfl⟩ : ∃ n, table = n + 8 := ⟨table - 8, by omega⟩
  rfl

/-- Rows of the tables that number them from 0. -/
theorem readTable_beyond (s : State) {table n row : Nat}
    (h : (table, n) ∈ [(0, 1), (1, 1), (2, 16), (3, 24), (4, 24), (5, 16), (6, 8)]) (hr : n ≤ row) :
    s.readTable table row = .badRow := by
  simp only [List.mem_cons, Prod.mk.injEq, List.not_mem_nil, or_false] at h
  rcases h with ⟨rfl, rfl⟩ | ⟨rfl, rfl⟩ | ⟨rfl, rfl⟩ | ⟨rfl, rfl⟩ | ⟨rfl, rfl⟩ | ⟨rfl, rfl⟩ | ⟨rfl, rfl⟩
  · exact rowBelow_of_le (fun _ => identityWords) hr
  · exact rowBelow_of_le (fun _ => s.portWords) hr
  all_goals exact rowBelow_of_le _ hr

theorem readTable_routes_outside (s : State) {row : Nat} (h : row = 0 ∨ 24 < row) : s.readTable 7 row = .badRow := by
  rcases row with _ | n
  · rfl
  · exact rowBelow_of_le _ (by omega)

/-- An area that one enabled agent row names reads with that row's lane. -/
theorem areaLane_of_named {s : State} {a : Fin 16} {l : Lane} (enabled : (s.agent l).enabled = true)
    (names : (s.agent l).area = a) (alone : ∀ k, (s.agent k).enabled = true → (s.agent k).area = a → k = l) :
    s.areaLane a = some l := by
  have some_ : (s.areaLane a).isSome := by
    rw [State.areaLane, List.find?_isSome]
    exact ⟨l, List.mem_finRange l, by simp [enabled, names]⟩
  obtain ⟨k, hk⟩ := Option.isSome_iff_exists.1 some_
  have holds := List.find?_some hk
  rw [Bool.and_eq_true, beq_iff_eq] at holds
  rw [hk, alone k holds.1 holds.2]

theorem areaLane_of_unnamed {s : State} {a : Fin 16}
    (h : ∀ l, (s.agent l).enabled = true → (s.agent l).area ≠ a) : s.areaLane a = none := by
  rw [State.areaLane, List.find?_eq_none]
  intro l _ hl
  rw [Bool.and_eq_true, beq_iff_eq] at hl
  exact h l hl.1 hl.2

/-- The codes of the fields of named values (R166). -/
theorem codes_are_indexes :
    [SessionState.detached, .active, .suspended, .draining].map (·.code) = [0, 1, 2, 3]
      ∧ [DrainKind.none, .answered, .silent].map (·.code) = [0, 1, 2]
      ∧ [WindowKind.direct, .translated, .sink].map (·.code) = [0, 1, 2]
      ∧ [Mode.off, .monitor, .enforce].map (·.code) = [0, 1, 2]
      ∧ [Counted.reads, .writes, .both].map (·.code) = [0, 1, 2]
      ∧ [Route.silent, .notify, .line].map (·.code) = [0, 1, 2]
      ∧ [Severity.notice, .error, .severe].map (·.rank) = [0, 1, 2]
      ∧ (∀ i, (causeOfRow i).number = i.val + 1) ∧ boolWord false = 0 ∧ boolWord true = 1
      ∧ ∀ n, (natWord n).toNat = n % 2 ^ 32 :=
  ⟨rfl, rfl, rfl, rfl, rfl, rfl, rfl, by decide, rfl, rfl, fun n => BitVec.toNat_ofNat n 32⟩

end Sys2Proof.Machine

open Sys2Proof Sys2Proof.Machine in
/-- Settles O18, table by table: the answer is what `readTable` finds at the row. -/
theorem readRowReturnsTheRow : Obligations.ReadRowReturnsTheRow := by
  refine ⟨codes_are_indexes, ?_⟩
  intro lane tag ws s ready two table row answer
  have found := fun {f : RowRead} h => readRow_answer (tag := tag) ready two (found := f) h
  refine ⟨fun h => ?_, fun n h hr => ?_, fun h hr => ?_, fun h hr => ?_, fun h hr => ?_, fun l h hr => ?_,
    fun i hr => ⟨fun h => ?_, fun h => ?_⟩, fun a h hr => ⟨fun l enabled names alone => ?_, fun unnamed => ?_⟩,
    fun n h hr => ?_, fun i h hr => ?_⟩
  · exact found (readTable_above _ _ h)
  · exact found (readTable_beyond _ h hr)
  · exact found (f := .badRow) (by
      show s.taken.readTable table row = _
      rw [h]; exact readTable_routes_outside _ hr)
  all_goals
    refine found (f := .row _) ?_
    show s.taken.readTable table row = _
    rw [h, hr]
  · rfl
  · rfl
  · exact rowBelow_val _ l
  · exact rowBelow_val _ i
  · exact rowBelow_val _ i
  · refine (rowBelow_val _ a).trans ?_
    rw [State.areaWords, State.areaRuntime, areaLane_of_named (s := s.taken) enabled names alone]
    rfl
  · refine (rowBelow_val _ a).trans ?_
    rw [State.areaWords, State.areaRuntime, areaLane_of_unnamed (s := s.taken) unnamed]
    rfl
  · exact rowBelow_val _ n
  · exact rowBelow_val _ i

namespace Sys2Proof.Machine

/-! ### LOAD_ROW of an agent row (R3) -/

/-- Case 3 of R3. -/
theorem agentInRange_eq (ws : List Word) :
    agentInRange ws = !decide (1 < word ws 0 ∨ 1 < word ws 8 ∨ 1 < word ws 9 ∨ 15 < word ws 3 ∨ 7 < word ws 4
      ∨ 1 < word ws 5 ∨ 16 < word ws 6 ∨ word ws 7 ∉ [0, 1, 2, 4, 8]) := by
  rw [Bool.eq_iff_iff]
  simp only [agentInRange, Bool.and_eq_true, decide_eq_true_eq, Bool.not_eq_true', decide_eq_false_iff_not,
    List.contains_iff_mem, show wordAt = word from rfl]
  grind

/-- Case 4 of R3. -/
theorem enabledUnset_eq (ws : List Word) :
    ((AgentRow.ofWords ws).enabled && ((AgentRow.ofWords ws).maxOutstanding == 0 || (AgentRow.ofWords ws).quantum == 0))
      = decide (word ws 0 = 1 ∧ (word ws 6 = 0 ∨ word ws 7 = 0)) := by
  simp only [AgentRow.ofWords, flagAt, show wordAt = word from rfl, Bool.decide_and, Bool.decide_or]
  rfl

/-- Case 5 of R3, for a row in range. -/
theorem enabledTaken_eq (s : State) (l : Lane) {ws : List Word} (h : word ws 3 ≤ 15) :
    ((AgentRow.ofWords ws).enabled && s.areaTaken l (AgentRow.ofWords ws).area)
      = decide (word ws 0 = 1 ∧ ∃ k, k ≠ l ∧ (s.agent k).enabled = true ∧ (s.agent k).area.val = word ws 3) := by
  have area : ∀ a : Fin 16, (a == Fin.ofNat 16 (word ws 3)) = decide (a.val = word ws 3) := fun a => by
    rw [Bool.eq_iff_iff, beq_iff_eq, Fin.ext_iff, Fin.val_ofNat, Nat.mod_eq_of_lt (by omega), decide_eq_true_iff]
  rw [Bool.eq_iff_iff]
  simp only [AgentRow.ofWords, flagAt, show wordAt = word from rfl, State.areaTaken, area]
  simp [allLanes, and_assoc]

/-- The refusals of R3, as the first case of its table that holds. -/
theorem agentRefusal_eq (s : State) (l : Lane) (ws : List Word) :
    s.agentRefusal l ws =
      firstCase
        [(decide ((s.lane l).session ≠ .detached), .rowInUse), (decide (ws.length < 10), .badValue),
          (decide (1 < word ws 0 ∨ 1 < word ws 8 ∨ 1 < word ws 9 ∨ 15 < word ws 3 ∨ 7 < word ws 4 ∨ 1 < word ws 5
            ∨ 16 < word ws 6 ∨ word ws 7 ∉ [0, 1, 2, 4, 8]), .badValue),
          (decide (word ws 0 = 1 ∧ (word ws 6 = 0 ∨ word ws 7 = 0)), .badValue),
          (decide (word ws 0 = 1 ∧ ∃ k, k ≠ l ∧ (s.agent k).enabled = true ∧ (s.agent k).area.val = word ws 3),
            .overlap)] := by
  unfold State.agentRefusal
  simp only [firstCase_cons, firstCase_nil, agentInRange_eq, enabledUnset_eq, Bool.not_not]
  by_cases joined : (s.lane l).session = .detached
  case neg => simp [joined]
  by_cases short : ws.length < 10
  case pos => simp [joined, short]
  split
  · rename_i h; simp [joined] at h
  by_cases outside : 1 < word ws 0 ∨ 1 < word ws 8 ∨ 1 < word ws 9 ∨ 15 < word ws 3 ∨ 7 < word ws 4 ∨ 1 < word ws 5
      ∨ 16 < word ws 6 ∨ word ws 7 ∉ [0, 1, 2, 4, 8]
  case pos => simp only [outside, joined, short]; rfl
  rw [enabledTaken_eq s l (by omega)]
  simp only [outside, joined, short]
  rfl

/-- The row that the ten words load. -/
theorem agentRow_ofWords_eq (ws : List Word) :
    AgentRow.ofWords ws =
      { enabled := decide (word ws 0 = 1), identifier := ws.getD 2 0 ++ ws.getD 1 0, area := Fin.ofNat 16 (word ws 3)
        cls := Fin.ofNat 8 (word ws 4), priority := if word ws 5 = 1 then .urgent else .normal
        maxOutstanding := word ws 6, quantum := word ws 7, privileged := decide (word ws 8 = 1)
        manageCapable := decide (word ws 9 = 1) } := rfl

/-- A LOAD_ROW of the agent table by the manager. -/
theorem loadAgents_ready {lane : Byte} {tag : Tag} {row : Word} {ws : List Word} {s : State}
    (ready : s.ready (laneOf lane)) :
    exec (.loadRowAgents lane tag row ws) s = .next (loadAgents ⟨laneOf lane, tag, 0x06⟩ row ws s.taken) :=
  congrArg Host.Outcome.next (takeMgmt_ready (rq := ⟨laneOf lane, tag, 0x06⟩) ready)

theorem loadAgents_row {rq : MgmtRequest} {row : Word} {ws : List Word} {s : State} {l : Lane}
    (h : row.toNat = l.val) :
    loadAgents rq row ws s =
      settleLoad rq (s.agentRefusal l ws) (fun s => s.setAgent l (AgentRow.ofWords ws)) [] s := by
  have lt : row.toNat < 16 := h ▸ l.isLt
  have same : (⟨row.toNat, lt⟩ : Lane) = l := Fin.ext h
  rw [loadAgents, dif_pos lt, same]

end Sys2Proof.Machine

open Sys2Proof Sys2Proof.Machine in
/-- Settles O20, by the cases of R3 as `settleLoad` answers them. -/
theorem loadAgentRow : Obligations.LoadAgentRow := by
  intro lane tag row ws s m w ready
  rw [loadAgents_ready ready]
  refine ⟨fun outside => ?_, ?_⟩
  · rw [loadAgents, dif_neg (by omega)]
    rfl
  · intro l names refused
    have refusal : s.taken.agentRefusal l ws = refused := agentRefusal_eq s.taken l ws
    rw [loadAgents_row names, refusal]
    refine ⟨fun st h => ?_, fun h => ?_⟩
    · rw [h, settleLoad_some _ _ _ _ _ rfl]
    · rw [h, settleLoad_none, agentRow_ofWords_eq]
      rfl
end

section
/-! The family of the agent sessions: entry to DETACHED and what ends an operation, the state after line reset, and the session
numbers. -/

namespace Sys2Proof.Machine

/-! ### The end of an operation (R161) -/

theorem endOp_of_forfeit {s : State} {o : Operation} (op : s.mgmt.op = some o) (forfeit : s.mgmt.forfeit = true) :
    endOp s = { s with mgmt := { s.mgmt with op := none } } := by
  simp [endOp, settleOp, op, forfeit, State.withMgmt]

theorem endOp_of_empty_slot {s : State} {o : Operation} (op : s.mgmt.op = some o) (forfeit : s.mgmt.forfeit = false)
    (reply : s.mgmt.reply = none) :
    endOp s = { s with mgmt := { s.mgmt with op := none } }.replied o.lane o.tag o.kind.code .done 0 [] := by
  simp [endOp, settleOp, op, forfeit, reply, State.withMgmt, State.replied, finalReply, State.lane]

theorem endOp_of_full_slot {s : State} {o : Operation} (op : s.mgmt.op = some o) (forfeit : s.mgmt.forfeit = false)
    (reply : s.mgmt.reply.isSome) :
    endOp s = { s with mgmt := { s.mgmt with op := some { o with ended := true } } } := by
  have full : s.mgmt.reply ≠ none := by rw [← Option.isSome_iff_ne_none]; exact reply
  simp [endOp, settleOp, op, forfeit, full, State.withMgmt]

/-- The end of an operation changes the management engine alone. -/
theorem endOp_fields (s : State) : endOp s = { s with mgmt := (endOp s).mgmt } := by
  unfold endOp settleOp
  repeat' split
  all_goals rfl

/-! ### Entry to DETACHED (R12, R16, R18) -/

/-- Outside RESTART, a lane that no SESSION RESET waits on is detached and nothing else changes. -/
theorem enterDetached_of_notAwaited {l : Lane} {s : State} (stage : s.mgmt.stage = .none) (h : s.notAwaited l) :
    enterDetached l s = s.setLane l (s.lane l).detach := by
  have waits : (s.setLane l (s.lane l).detach).resetWaits l = false := resetWaits_eq_false.2 h
  unfold enterDetached
  rw [updLane_eq_setLane]
  simp only [waits]
  exact restartProgress_of_none stage

/-- Outside RESTART, the SESSION RESET that waits on a lane ends when the lane is detached. -/
theorem enterDetached_of_awaited {l m : Lane} {tag : Tag} {s : State} (stage : s.mgmt.stage = .none)
    (op : s.mgmt.op = some ⟨.sessionReset l, m, tag, false⟩) :
    enterDetached l s = endOp (s.setLane l (s.lane l).detach) := by
  have waits : (s.setLane l (s.lane l).detach).resetWaits l = true := by
    show (s.mgmt.op.any _) = true
    rw [op]
    simp
  unfold enterDetached
  rw [updLane_eq_setLane]
  simp only [waits, if_true]
  apply restartProgress_of_none
  unfold endOp settleOp
  repeat' split
  all_goals exact stage

/-- A SESSION RESET in progress waits on the lane, or none does. -/
theorem awaited_or_notAwaited (s : State) (l : Lane) :
    (∃ m tag, s.mgmt.op = some ⟨.sessionReset l, m, tag, false⟩) ∨ s.notAwaited l := by
  by_cases h : s.notAwaited l
  · exact .inr h
  · rw [State.notAwaited] at h
    push Not at h
    obtain ⟨⟨kind, m, tag, ended⟩, op, rfl, open_⟩ := h
    rw [op]
    exact .inl ⟨m, tag, by simpa using open_⟩

/-- Outside RESTART, the engine after a lane's entry to DETACHED. -/
theorem enterDetached_settled {l : Lane} {s : State} (stage : s.mgmt.stage = .none) :
    s.resetSettled (enterDetached l s) l := by
  refine ⟨fun h => by rw [enterDetached_of_notAwaited stage h]; rfl, fun m tag op => ?_⟩
  rw [enterDetached_of_awaited stage op]
  have op' : (s.setLane l (s.lane l).detach).mgmt.op = some ⟨.sessionReset l, m, tag, false⟩ := op
  refine ⟨fun forfeit => ?_, fun forfeit reply => ?_, fun forfeit reply => ?_⟩
  · rw [endOp_of_forfeit op' forfeit]
    rfl
  · rw [endOp_of_empty_slot op' forfeit reply]
    show ({ s.mgmt with op := none, reply := _ } : Mgmt) = _
    have number : ((s.setLane l (s.lane l).detach).lane m).number = (s.lane m).number := by
      by_cases e : m = l
      · subst e; rw [setLane_lane_self]; rfl
      · rw [setLane_lane_ne _ _ e]
    rw [← number]
    rfl
  · rw [endOp_of_full_slot op' forfeit reply]
    rfl

/-- Outside RESTART, entry to DETACHED changes the lane's record and the management engine alone. -/
theorem enterDetached_fields {l : Lane} {s : State} (stage : s.mgmt.stage = .none) :
    enterDetached l s = { s.setLane l (s.lane l).detach with mgmt := (enterDetached l s).mgmt } := by
  rcases awaited_or_notAwaited s l with ⟨m, tag, op⟩ | h
  · rw [enterDetached_of_awaited stage op]
    exact endOp_fields _
  · rw [enterDetached_of_notAwaited stage h]

theorem closeDrain_of_open {l : Lane} {s : State} (h : (s.lane l).session ≠ .draining ∨ (s.lane l).slots ≠ []) :
    closeDrain l s = s := by
  refine if_neg fun g => ?_
  rw [Bool.and_eq_true, beq_iff_eq, List.isEmpty_iff] at g
  exact h.elim (fun h => h g.1) (fun h => h g.2)

theorem closeDrain_of_empty {l : Lane} {s : State} (draining : (s.lane l).session = .draining)
    (empty : (s.lane l).slots = []) : closeDrain l s = enterDetached l s :=
  if_pos (by rw [draining, empty]; rfl)

theorem detach_of_silent {r : LaneState} (h : r.drain = .silent) :
    r.detach = { r with
      session := .detached, drain := .none, closingOwed := none, joinReplySent := false, credit := 0
      creditWaiting := none } := by
  simp [LaneState.detach, h]

theorem detach_of_answered {r : LaneState} {tag : Tag} (h : r.drain = .answered) (owed : r.closingOwed = some tag) :
    r.detach = { r with
      session := .detached, drain := .none, closingOwed := none, joinReplySent := false, credit := 0
      creditWaiting := none, stream := r.stream ++ [.closing tag r.number] } := by
  simp [LaneState.detach, h, owed]

end Sys2Proof.Machine

open Sys2Proof Sys2Proof.Machine in
/-- Settles O10: `closeDrain` enters DETACHED exactly on a draining lane with an empty list. -/
theorem laneEntersDetached : Obligations.LaneEntersDetached := by
  intro l s r gone
  refine ⟨fun h => congrArg Host.Outcome.next (closeDrain_of_open h), fun draining empty stage => ?_⟩
  have ran : exec (.laneDetached l) s = .next (enterDetached l s) :=
    congrArg Host.Outcome.next (closeDrain_of_empty draining empty)
  rw [ran]
  refine ⟨fun free silent => ?_, fun free tag answered owed => ?_, fun m tag op silent => ?_⟩
  · rw [enterDetached_of_notAwaited stage free, detach_of_silent silent]
  · rw [enterDetached_of_notAwaited stage free, detach_of_answered answered owed]
    rfl
  · have lane : (s.lane l).detach = gone := detach_of_silent silent
    have op' : (s.setLane l gone).mgmt.op = some ⟨.sessionReset l, m, tag, false⟩ := op
    rw [enterDetached_of_awaited stage op, lane]
    refine ⟨fun forfeit reply => ?_, fun forfeit reply => ?_, fun forfeit => ?_⟩
    · rw [endOp_of_empty_slot op' forfeit reply]
      rfl
    · rw [endOp_of_full_slot op' forfeit reply]
      rfl
    · rw [endOp_of_forfeit op' forfeit]
      rfl

namespace Sys2Proof.Machine

/-! ### The state after line reset -/

@[simp] theorem reset_lane (l : Lane) : State.reset.lane l = LaneState.reset := by
  simp [State.reset, State.lane]

@[simp] theorem reset_agent (l : Lane) : State.reset.agent l = AgentRow.zero := by
  simp [State.reset, State.agent]

@[simp] theorem reset_area (a : Fin 16) : State.reset.area a = Area.reset := by
  simp [State.reset, State.area]

@[simp] theorem reset_cls (c : ClassNo) : State.reset.cls c = BudgetClass.reset := by
  simp [State.reset, State.cls]

@[simp] theorem reset_walk (w : WalkNo) : State.reset.walk w = none := by
  simp [State.reset, State.walk]

@[simp] theorem reset_memId (i : MemId) : State.reset.memId i = .free := by
  simp [State.reset, State.memId]

theorem reset_accountLaw : AccountLaw State.reset where
  tags l := by simp [LaneState.reset, LaneState.tags]
  lanes := ⟨fun l _ => by simp [LaneState.reset], fun l h => by simp [LaneState.reset] at h,
    fun l k h => by simp [AgentRow.zero] at h⟩
  issued l := by simp [LaneState.reset]
  streams := ⟨fun l => by simp [LaneState.reset], fun x h => by simp [State.reset] at h⟩
  indexes := by decide
  waiters := by
    have none_ : State.reset.allWaiters = [] := by decide
    exact ⟨by simp [none_], by simp [none_], by simp [State.reset]⟩
  ids i y h := by simp [IdState.piece?] at h
  units l := by simp [LaneState.reset]
  counts := ⟨fun l h => by simp [LaneState.reset] at h, fun a _ => by simp [Area.reset]⟩

end Sys2Proof.Machine

open Sys2Proof Sys2Proof.Machine in
/-- Settles O60, law by law. -/
theorem resetSatisfiesTheLaws : Obligations.ResetSatisfiesTheLaws := by
  refine ⟨by decide, by decide, fun _ => by decide, restartLaw_of_stage_none rfl, resetLaw_of_op_none rfl, by decide,
    reset_staging_wf, reset_accountLaw.tags, fun l => ?_, fun l h => ?_, fun c _ => ?_, reset_accountLaw.indexes,
    reset_accountLaw, fun h => ?_⟩
  · simp [LaneState.reset, LaneState.drainLaw]
  · simp [LaneState.reset] at h
  · simp [BudgetClass.reset]
  · simp [State.reset] at h
end

section
/-! What every step keeps, said once: a relation that each operation behind the commands keeps is kept by every command but
LINE_RESET and JOIN, and by the passing of time. -/

namespace Sys2Proof.Machine

/-- The engine's role, its operation and the stage of RESTART are the same. -/
def Mgmt.SameDuty (m n : Mgmt) : Prop :=
  n.claim = m.claim ∧ n.manager = m.manager ∧ n.confirmTimer = m.confirmTimer ∧ n.op = m.op ∧ n.stage = m.stage

/-- A relation from the state before to the state after that the operations of the manager keep, but for those that change its
role or begin an operation in progress. -/
structure RunRel (R : State → State → Prop) : Prop where
  refl : ∀ s, R s s
  trans : ∀ s t u, R s t → R t u → R s u
  aside : ∀ s f, s.mgmt.SameDuty (f s.mgmt) → R s (s.withMgmt f)
  faults : ∀ s f, R s (s.withFaults f)
  windows : ∀ s f, R s (s.withWindows f)
  portRow : ∀ s row, R s { s with portRow := row }
  suspend : ∀ l s, R s (suspendLane l s)
  resume : ∀ l s, (s.lane l).session = .suspended →
    R s (grantRule l (s.updLane l fun r => { r with session := .active }))
  agentRow : ∀ l row s, (s.lane l).session = .detached → ¬(row.enabled = true ∧ s.areaTaken l row.area = true) →
    R s (s.setAgent l row)
  areaRow : ∀ a row s, s.areaInUse a = false → R s (s.updArea a fun x => { x with row := row })
  class_ : ∀ c f s, ((s.cls c).openLaw → (f (s.cls c)).openLaw) → R s (s.updClass c f)
  invalidate : ∀ sc s, R s (invalidateScope sc s)

/-- A relation from the state before to the state after that each operation behind a command keeps, in the states in which the
command comes to it. It does not look at the management engine's, the fault unit's or the window unit's own state. -/
structure StepRel (R : State → State → Prop) : Prop extends RunRel R where
  queue : ∀ s rest, R s { s with pending := rest }
  engine : ∀ s f, R s (s.withMgmt f)
  aside := fun s f _ => engine s f
  link : ∀ s f, (f s.link).tx = s.link.tx → R s (s.withLink f)
  immediate : ∀ l x s, x.answers = none → R s (handItem l x s)
  openAnswered : ∀ l tag s, (s.lane l).session = .active ∨ (s.lane l).session = .suspended →
    R s (openAnswered l tag s)
  silenceNew : ∀ l s, R s (silenceNew l s)
  closeDrain : ∀ l s, R s (closeDrain l s)
  accept : ∀ rq s, s.refusal rq = none → R s (accept rq s)
  finalChange : ∀ s, R s (finalChange s)
  grant : ∀ ids s, R s (grant ids s)
  response : ∀ i st beats s, R s (memoryResponse i st beats s)
  timeout : ∀ i s, R s (responseTimeout i s)
  linkLoss : ∀ s, R s (linkLoss s)
  startNext : ∀ s, s.mayTransmit = true → R s (startNext s)
  transmissionEnd : ∀ s, R s (transmissionEnd s)
  count : ∀ s, R s (countAll s)

namespace RunRel

variable {R : State → State → Prop}

theorem forEach (h : RunRel R) {α : Type} (f : α → State → State) (step : ∀ x s, R s (f x s)) (xs : List α)
    (s : State) : R s (forEach xs f s) := forEach_rel R h.refl h.trans f step xs s

theorem report (h : RunRel R) (rep : Report) (s : State) : R s (report rep s) := by
  unfold Machine.report
  dsimp only
  split
  · exact h.trans _ _ _ (h.faults s _) (h.suspend _ _)
  · exact h.faults s _

theorem reportAll (h : RunRel R) (reps : List Report) (s : State) : R s (reportAll reps s) :=
  h.forEach Machine.report h.report reps s

theorem handReply (h : RunRel R) (rq : MgmtRequest) (st : MgmtStatus) (kw : Word) (ws : List Word) (s : State) :
    R s (handReply rq st kw ws s) := h.aside s _ ⟨rfl, rfl, rfl, rfl, rfl⟩

theorem replyPlain (h : RunRel R) (rq : MgmtRequest) (st : MgmtStatus) (s : State) : R s (replyPlain rq st s) :=
  h.handReply rq st 0 [] s

theorem readRow (h : RunRel R) (rq : MgmtRequest) (ws : List Word) (s : State) : R s (readRow rq ws s) := by
  unfold Machine.readRow
  split
  · exact h.replyPlain _ _ s
  · exact h.replyPlain _ _ s
  · exact h.handReply _ _ _ _ s

theorem settleLoad (h : RunRel R) (rq : MgmtRequest) {refusal : Option MgmtStatus} {load : State → State}
    (ws : List Word) {s : State} (loaded : refusal = none → R s (load s)) : R s (settleLoad rq refusal load ws s) := by
  unfold Machine.settleLoad
  split
  · split
    · exact h.trans _ _ _ (h.replyPlain _ _ s) (h.report _ _)
    · exact h.replyPlain _ _ s
  · exact h.trans _ _ _ (loaded rfl) (h.handReply _ _ _ _ _)

theorem loadPort (h : RunRel R) (rq : MgmtRequest) (row : Word) (ws : List Word) (s : State) :
    R s (loadPort rq row ws s) := by
  refine h.settleLoad rq _ fun _ => ?_
  unfold putPort
  split
  · exact h.trans _ _ _ (h.portRow s _) (h.invalidate _ _)
  · exact h.portRow s _

theorem loadAgents (h : RunRel R) (rq : MgmtRequest) (row : Word) (ws : List Word) (s : State) :
    R s (loadAgents rq row ws s) := by
  unfold Machine.loadAgents
  split
  · refine h.settleLoad rq _ fun taken => h.agentRow _ _ s ?_ fun overlap => ?_
    · by_contra joined
      simp [State.agentRefusal, joined] at taken
    · rw [← Bool.and_eq_true] at overlap
      simp only [State.agentRefusal, overlap, if_true] at taken
      repeat' split at taken
      all_goals cases taken
  · exact h.replyPlain _ _ s

theorem loadWindows (h : RunRel R) (rq : MgmtRequest) (row : Word) (ws : List Word) (s : State) :
    R s (loadWindows rq row ws s) := by
  unfold Machine.loadWindows
  split
  · exact h.settleLoad rq _ fun _ => h.windows s _
  · exact h.replyPlain _ _ s

theorem loadAreas (h : RunRel R) (rq : MgmtRequest) (row : Word) (ws : List Word) (s : State) :
    R s (loadAreas rq row ws s) := by
  unfold Machine.loadAreas
  split
  · refine h.settleLoad rq _ fun taken => h.areaRow _ _ s ?_
    by_contra used
    rw [Bool.not_eq_false] at used
    simp only [State.areaRefusal, used, if_true] at taken
    repeat' split at taken
    all_goals cases taken
  · exact h.replyPlain _ _ s

theorem loadClasses (h : RunRel R) (rq : MgmtRequest) (row : Word) (ws : List Word) (s : State) :
    R s (loadClasses rq row ws s) := by
  unfold Machine.loadClasses
  split
  · exact h.settleLoad rq _ fun _ => h.class_ _ _ s fun _ => reopened_openLaw _
  · exact h.replyPlain _ _ s

theorem loadRoutes (h : RunRel R) (rq : MgmtRequest) (row : Word) (ws : List Word) (s : State) :
    R s (loadRoutes rq row ws s) := by
  unfold Machine.loadRoutes
  split
  · exact h.settleLoad rq _ fun _ => h.faults s _
  · exact h.replyPlain _ _ s

theorem loadTable (h : RunRel R) (rq : MgmtRequest) (table : Nat) (row : Word) (ws : List Word) (s : State) :
    R s (loadTable rq table row ws s) := by
  unfold Machine.loadTable
  split
  · exact h.loadPort _ _ _ s
  · exact h.loadAgents _ _ _ s
  · exact h.loadWindows _ _ _ s
  · exact h.loadAreas _ _ _ s
  · exact h.loadClasses _ _ _ s
  · exact h.loadRoutes _ _ _ s
  · exact h.replyPlain _ _ s

theorem commit (h : RunRel R) (rq : MgmtRequest) (s : State) : R s (commit rq s) := by
  unfold Machine.commit
  split
  · exact h.trans _ _ _ (h.windows s _) (h.handReply _ _ _ _ _)
  · exact h.handReply _ _ _ _ s

theorem invalidate_ (h : RunRel R) (rq : MgmtRequest) (ws : List Word) (s : State) :
    R s (Machine.invalidate rq ws s) := by
  unfold Machine.invalidate
  split
  · exact h.trans _ _ _ (h.invalidate _ s) (h.handReply _ _ _ _ _)
  · exact h.replyPlain _ _ s

theorem sessionSuspend (h : RunRel R) (rq : MgmtRequest) (l : Lane) (s : State) : R s (sessionSuspend rq l s) := by
  unfold Machine.sessionSuspend
  split
  · exact h.trans _ _ _ (h.suspend l s) (h.replyPlain _ _ _)
  · exact h.replyPlain _ _ s

theorem sessionResume (h : RunRel R) (rq : MgmtRequest) (l : Lane) (s : State) : R s (sessionResume rq l s) := by
  unfold Machine.sessionResume
  split
  · rename_i suspended
    exact h.trans _ _ _ (h.resume l s (by simpa using suspended)) (h.replyPlain _ _ _)
  · exact h.replyPlain _ _ s

theorem throttle (h : RunRel R) (rq : MgmtRequest) (n : ClassNo) (may : Bool) {f : BudgetClass → BudgetClass}
    (keeps : ∀ c : BudgetClass, (f c).openLaw) (s : State) : R s (throttle rq n may f s) := by
  unfold Machine.throttle
  split
  · exact h.trans _ _ _ (h.class_ n f s fun _ => keeps _) (h.handReply _ _ _ _ _)
  · exact h.handReply _ _ _ _ s

theorem throttleStart (h : RunRel R) (rq : MgmtRequest) (ws : List Word) (s : State) :
    R s (throttleStart rq ws s) := by
  unfold Machine.throttleStart
  split
  · exact h.replyPlain _ _ s
  · exact h.throttle _ _ _ (fun _ held => by cases held) s

theorem throttleRelease (h : RunRel R) (rq : MgmtRequest) (ws : List Word) (s : State) :
    R s (throttleRelease rq ws s) := by
  unfold Machine.throttleRelease
  split
  · exact h.replyPlain _ _ s
  · exact h.throttle _ _ _ (fun _ _ => ⟨rfl, rfl⟩) s

theorem readFaults (h : RunRel R) (rq : MgmtRequest) (ws : List Word) (s : State) : R s (readFaults rq ws s) := by
  unfold Machine.readFaults
  split
  · exact h.replyPlain _ _ s
  · exact h.handReply _ _ _ _ s

theorem clearFaults (h : RunRel R) (rq : MgmtRequest) (ws : List Word) (s : State) : R s (clearFaults rq ws s) := by
  unfold Machine.clearFaults
  split
  · exact h.replyPlain _ _ s
  · exact h.trans _ _ _ (h.faults s _) (h.handReply _ _ _ _ _)

theorem lock (h : RunRel R) (rq : MgmtRequest) (s : State) : R s (lock rq s) := by
  unfold Machine.lock
  split
  · exact h.replyPlain _ _ s
  · split
    · exact h.replyPlain _ _ s
    · exact h.trans _ _ _ (h.aside s _ ⟨rfl, rfl, rfl, rfl, rfl⟩) (h.replyPlain _ _ _)

end RunRel

namespace StepRel

variable {R : State → State → Prop}

theorem abandonClaim (h : StepRel R) (l : Lane) (s : State) : R s (abandonClaim l s) := by
  unfold Machine.abandonClaim
  split
  · exact h.engine s _
  · exact h.refl s

theorem settleOp (h : StepRel R) (s : State) : R s (settleOp s) := by
  unfold Machine.settleOp
  repeat' split
  all_goals first | exact h.engine s _ | exact h.refl s

theorem restartMemory (h : StepRel R) (s : State) : R s (restartMemory s) := by
  unfold Machine.restartMemory
  split
  · exact h.finalChange s
  · exact h.refl s

theorem restartProgress (h : StepRel R) (s : State) : R s (restartProgress s) := by
  unfold Machine.restartProgress
  split
  · exact h.trans _ _ _ (h.engine s _) (h.restartMemory _)
  · exact h.restartMemory s

/-! ### Parcels -/

theorem sessionParcel (h : StepRel R) (l : Lane) {act : State → State} (run : ∀ s, R s (act s)) (s : State) :
    R s (sessionParcel l act s) := by
  unfold Machine.sessionParcel
  split
  · exact h.refl s
  · dsimp only
    split
    · exact h.trans _ _ _ (h.abandonClaim l s) (h.report _ _)
    · exact h.trans _ _ _ (h.abandonClaim l s) (run _)

theorem takeLeave (h : StepRel R) (l : Lane) (tag : Tag) (number : BitVec 8) (s : State) :
    R s (takeLeave l tag number s) := by
  unfold Machine.takeLeave
  dsimp only
  split
  · exact h.immediate l _ s rfl
  · split
    · exact h.immediate l _ s rfl
    · split
      · exact h.immediate l _ s rfl
      · split
        · exact h.immediate l _ s rfl
        · rename_i joined open_ _
          refine h.openAnswered l tag s ?_
          cases e : (s.lane l).session with
          | detached => exact absurd (by rw [e]; rfl) joined
          | draining => exact absurd (by rw [e]; rfl) open_
          | active => exact .inl rfl
          | suspended => exact .inr rfl

theorem refuse (h : StepRel R) (rq : Request) (code : RefusalCode) (rep : Option Report) (s : State) :
    R s (refuse rq code rep s) := by
  unfold Machine.refuse
  dsimp only
  split
  · exact h.reportAll _ s
  · exact h.trans _ _ _ (h.link s _ rfl) (h.reportAll _ _)

theorem requestArrives (h : StepRel R) (rq : Request) (s : State) : R s (requestArrives rq s) := by
  unfold Machine.requestArrives
  split
  · exact h.refl s
  · refine h.trans _ _ _ (h.abandonClaim rq.lane s) ?_
    unfold Machine.takeRequest
    split
    · exact h.refuse _ _ _ _
    · exact h.accept rq _ ‹_›

theorem settleUnclaimed (h : StepRel R) (rq : MgmtRequest) (s : State) : R s (settleUnclaimed rq s) := by
  unfold Machine.settleUnclaimed
  split
  · exact h.trans _ _ _ (h.engine s _) (h.replyPlain _ _ _)
  · split
    · exact h.trans _ _ _ (h.engine s _) (h.replyPlain _ _ _)
    · exact h.replyPlain _ _ s

theorem takeMgmt (h : StepRel R) (rq : MgmtRequest) (bad : Bool) {run : State → State} (ran : ∀ s, R s (run s))
    (s : State) : R s (takeMgmt rq bad run s) := by
  have settled : ∀ s : State, R s
      (if s.mgmt.reply.isSome then Machine.report { cause := .mgmtRefused, lane := some rq.lane } s
      else if s.mgmt.claim != .claimed then Machine.settleUnclaimed rq s
      else if s.mgmt.manager != some rq.lane then
        Machine.report { cause := .mgmtRefused, lane := some rq.lane } (Machine.replyPlain rq .notManager s)
      else if s.restarting || s.mgmt.op.isSome then Machine.handReply rq .busy (busyWord s) [] s
      else if bad then Machine.replyPlain rq .badValue s
      else run (s.withMgmt fun m => { m with forfeit := false })) := by
    intro s
    split
    · exact h.report _ s
    · split
      · exact h.settleUnclaimed rq s
      · split
        · exact h.trans _ _ _ (h.replyPlain rq .notManager s) (h.report _ _)
        · split
          · exact h.handReply _ _ _ _ s
          · split
            · exact h.replyPlain _ _ s
            · exact h.trans _ _ _ (h.engine s _) (ran _)
  unfold Machine.takeMgmt
  split
  · exact h.refl s
  · dsimp only
    split
    · exact settled s
    · exact h.trans _ _ _ (h.abandonClaim rq.lane s) (settled _)

/-! ### The operations of the manager -/

theorem handover (h : StepRel R) (rq : MgmtRequest) (target : Lane) (s : State) : R s (handover rq target s) := by
  unfold Machine.handover
  split
  · exact h.replyPlain _ _ s
  · split
    · exact h.replyPlain _ _ s
    · exact h.trans _ _ _ (h.trans _ _ _ (h.replyPlain rq .done s) (h.engine _ _)) (h.faults _ _)

theorem sessionReset (h : StepRel R) (rq : MgmtRequest) (l : Lane) (s : State) : R s (sessionReset rq l s) := by
  unfold Machine.sessionReset
  split
  · exact h.replyPlain _ _ s
  · exact h.trans _ _ _ (h.engine s _) (h.silenceNew l _)

theorem restart (h : StepRel R) (rq : MgmtRequest) (s : State) : R s (restart rq s) :=
  h.trans _ _ _ (h.trans _ _ _ (h.trans _ _ _ (h.engine s _) (h.faults _ _))
    (h.forEach _ h.silenceNew allLanes _)) (h.restartProgress _)

/-! ### The link and time -/

theorem damagedMarker (h : StepRel R) (s : State) : R s (damagedMarker s) := by
  unfold Machine.damagedMarker
  split
  · exact h.refl s
  · exact h.link s _ rfl
  · split
    · exact h.trans _ _ _ (h.link s _ rfl) (h.linkLoss _)
    · exact h.link s _ rfl

theorem lossOfSignal (h : StepRel R) (s : State) : R s (lossOfSignal s) := by
  unfold Machine.lossOfSignal
  split
  · exact h.refl s
  · exact h.link s _ rfl
  · exact h.linkLoss s

theorem dropFrame (h : StepRel R) (f : Frame) (s : State) : R s (dropFrame f s) := by
  unfold Machine.dropFrame
  split
  · exact h.report _ s
  · exact h.report _ s
  · exact h.refl s

theorem windowEnd_openLaw {c : BudgetClass} (h : c.openLaw) : c.windowEnd.openLaw := by
  unfold BudgetClass.windowEnd BudgetClass.holdFalls
  split
  · exact h
  · split
    · exact fun open_ => h open_
    · split
      · exact fun _ => ⟨rfl, rfl⟩
      · rename_i _ held _
        exact fun open_ => absurd (by simpa using open_) held

theorem slotEnd_openLaw {c : BudgetClass} (h : c.openLaw) : c.slotEnd.openLaw := by
  unfold BudgetClass.slotEnd
  split
  · exact h
  · exact fun open_ => ⟨(h open_).1, rfl⟩

theorem expired_openLaw {c d : BudgetClass} {timer : Option Nat} (hc : c.openLaw) (hd : d.openLaw) :
    (if expired timer then c else d).openLaw := by
  split
  · exact hc
  · exact hd

theorem expireClass (h : StepRel R) (n : ClassNo) (s : State) : R s (expireClass n s) :=
  h.class_ n _ s fun law =>
    have first := expired_openLaw (windowEnd_openLaw law) law
    expired_openLaw (slotEnd_openLaw first) first

theorem expireId (h : StepRel R) (i : MemId) (s : State) : R s (expireId i s) := by
  unfold Machine.expireId
  split
  · exact h.timeout i s
  all_goals exact h.refl s

theorem tick (h : StepRel R) (s : State) : R s (tick s) := by
  have confirm : R (countAll s) (expireConfirm (countAll s)) := by
    unfold expireConfirm
    split
    · exact h.engine _ _
    · exact h.refl _
  exact h.trans _ _ _ (h.trans _ _ _ (h.trans _ _ _ (h.count s) confirm) (h.forEach _ h.expireId allIds _))
    (h.forEach _ h.expireClass allClasses _)

/-! ### Every command -/

/-- The commands that `StepRel` leaves out: LINE_RESET and JOIN. -/
def covered : Instr → Prop
  | .lineReset _ => False
  | .join _ _ _ => False
  | _ => True

theorem exec (h : StepRel R) {c : Instr} (hc : covered c) {s t : State} (run : exec c s = .next t) : R s t := by
  have same : ∀ {u : State}, R s u → Host.Outcome.next u = (Host.Outcome.next t : Host.Outcome State Fault Refusal) →
      R s t := fun r e => by cases e; exact r
  cases c with
  | lineReset straps => exact hc.elim
  | join lane tag identifier => exact hc.elim
  | signalPresent => exact same (h.link s signalPresent (by unfold signalPresent; split <;> rfl)) run
  | goodMarker =>
    refine same (h.link s goodMarker ?_) run
    unfold goodMarker
    split
    · rfl
    · split <;> rfl
    · rfl
  | damagedMarker => exact same (h.damagedMarker s) run
  | lossOfSignal => exact same (h.lossOfSignal s) run
  | parcelDropped frame =>
    refine same ?_ run
    split
    · exact h.dropFrame frame s
    · exact h.refl s
  | leave lane tag number => exact same (h.sessionParcel _ (h.takeLeave _ _ _) s) run
  | read lane tag number address length => exact same (h.requestArrives _ s) run
  | write lane tag number address length data => exact same (h.requestArrives _ s) run
  | claim lane tag => exact same (h.takeMgmt _ _ (h.replyPlain _ _) s) run
  | confirm lane tag => exact same (h.takeMgmt _ _ (h.replyPlain _ _) s) run
  | confirmTimerExpiry =>
    refine same ?_ run
    split
    · exact h.engine s _
    · exact h.refl s
  | release lane tag =>
    exact same (h.takeMgmt _ _ (fun s => h.trans _ _ _ (h.engine s _) (h.replyPlain _ _ _)) s) run
  | handover lane tag payload => exact same (h.takeMgmt _ _ (h.handover _ _) s) run
  | readRow lane tag payload => exact same (h.takeMgmt _ _ (h.readRow _ _) s) run
  | loadRow lane tag payload => exact same (h.takeMgmt _ _ (h.loadTable _ _ _ _) s) run
  | loadRowPort lane tag row words => exact same (h.takeMgmt _ _ (h.loadPort _ _ _) s) run
  | loadRowAgents lane tag row words => exact same (h.takeMgmt _ _ (h.loadAgents _ _ _) s) run
  | loadRowWindows lane tag row words => exact same (h.takeMgmt _ _ (h.loadWindows _ _ _) s) run
  | loadRowAreas lane tag row words => exact same (h.takeMgmt _ _ (h.loadAreas _ _ _) s) run
  | loadRowClasses lane tag row words => exact same (h.takeMgmt _ _ (h.loadClasses _ _ _) s) run
  | loadRowRoutes lane tag row words => exact same (h.takeMgmt _ _ (h.loadRoutes _ _ _) s) run
  | commit lane tag => exact same (h.takeMgmt _ _ (h.commit _) s) run
  | invalidate lane tag payload => exact same (h.takeMgmt _ _ (h.invalidate_ _ _) s) run
  | sessionSuspend lane tag payload => exact same (h.takeMgmt _ _ (h.sessionSuspend _ _) s) run
  | sessionResume lane tag payload => exact same (h.takeMgmt _ _ (h.sessionResume _ _) s) run
  | sessionReset lane tag payload => exact same (h.takeMgmt _ _ (h.sessionReset _ _) s) run
  | throttleStart lane tag payload => exact same (h.takeMgmt _ _ (h.throttleStart _ _) s) run
  | throttleRelease lane tag payload => exact same (h.takeMgmt _ _ (h.throttleRelease _ _) s) run
  | readFaults lane tag payload => exact same (h.takeMgmt _ _ (h.readFaults _ _) s) run
  | clearFaults lane tag payload => exact same (h.takeMgmt _ _ (h.clearFaults _ _) s) run
  | lock lane tag => exact same (h.takeMgmt _ _ (h.lock _) s) run
  | restart lane tag => exact same (h.takeMgmt _ _ (h.restart _) s) run
  | status lane tag => exact same (h.takeMgmt _ _ (fun s => h.handReply _ _ _ _ s) s) run
  | unknownOperation lane tag code => exact same (h.takeMgmt _ _ h.refl s) run
  | grant ids => exact same (h.grant ids s) run
  | memoryResponse id status beats => exact same (h.response id status beats s) run
  | responseTimeout id => exact same (h.timeout id s) run
  | windowEnd cls => exact same (h.class_ cls _ s windowEnd_openLaw) run
  | slotEnd cls => exact same (h.class_ cls _ s slotEnd_openLaw) run
  | transmitStart =>
    refine same ?_ run
    split
    · exact h.startNext s ‹_›
    · exact h.refl s
  | transmissionEnd => exact same (h.transmissionEnd s) run
  | laneDetached lane => exact same (h.closeDrain lane s) run
  | finalReplyHanded => exact same (h.settleOp s) run
  | restartStageMemory =>
    refine same ?_ run
    split
    · exact h.restartProgress s
    · exact h.refl s
  | restartFinalChange => exact same (h.restartMemory s) run

theorem covered_or (c : Instr) :
    covered c ∨ (∃ straps, c = .lineReset straps) ∨ ∃ lane tag identifier, c = .join lane tag identifier := by
  cases c
  case lineReset straps => exact .inr (.inl ⟨straps, rfl⟩)
  case join lane tag identifier => exact .inr (.inr ⟨lane, tag, identifier, rfl⟩)
  all_goals exact .inl trivial

/-- Every step keeps the relation, or takes a LINE_RESET or a JOIN from the front of the queue. -/
theorem step (h : StepRel R) {s t : State} (run : step s = .next t) :
    R s t
      ∨ (∃ straps rest, s.pending = .lineReset straps :: rest
          ∧ Machine.exec (.lineReset straps) { s with pending := rest } = .next t)
      ∨ ∃ lane tag identifier rest, s.pending = .join lane tag identifier :: rest
          ∧ Machine.exec (.join lane tag identifier) { s with pending := rest } = .next t := by
  unfold Machine.step at run
  split at run
  · rename_i c rest front
    rcases covered_or c with hc | ⟨straps, rfl⟩ | ⟨lane, tag, identifier, rfl⟩
    · exact .inl (h.trans _ _ _ (h.queue s rest) (h.exec hc run))
    · exact .inr (.inl ⟨straps, rest, front, run⟩)
    · exact .inr (.inr ⟨lane, tag, identifier, rest, front, run⟩)
  · exact .inl (Host.Outcome.next.inj run ▸ h.tick s)

end StepRel

end Sys2Proof.Machine
end

section
/-! What every step keeps of the lists' tags, the drain kinds, the classes' OPEN law and the session numbers. -/

namespace Sys2Proof.Machine

/-- The session numbers are kept, and the laws of the tags, of the drains and of the OPEN classes hold again. -/
structure ListsKept (s t : State) : Prop where
  number : ∀ l, (t.lane l).number = (s.lane l).number
  tags : TagLaw s → TagLaw t
  drain : DrainLaw s → DrainLaw t
  open_ : OpenLaw s → OpenLaw t

namespace ListsKept

theorem refl (s : State) : ListsKept s s := ⟨fun _ => rfl, id, id, id⟩

theorem trans {s t u : State} (a : ListsKept s t) (b : ListsKept t u) : ListsKept s u :=
  ⟨fun l => (b.number l).trans (a.number l), fun h => b.tags (a.tags h), fun h => b.drain (a.drain h),
    fun h => b.open_ (a.open_ h)⟩

theorem of_kept {s t : State} (h : Kept s t) : ListsKept s t :=
  ⟨h.inner.number, fun law l => (law l).sublist (h.inner.tags l), fun law l => h.inner.drain l (law l),
    fun law c => h.inner.openLaw c (law c)⟩

theorem of_inner {s t : State} (h : Inner s t) : ListsKept s t := of_kept h.kept

/-- Lanes and classes that are left. -/
theorem of_same {s t : State} (lanes : t.lanes = s.lanes) (classes : t.classes = s.classes) : ListsKept s t := by
  have lane : ∀ l, t.lane l = s.lane l := fun l => by simp only [State.lane, lanes]
  have cls : ∀ c, t.cls c = s.cls c := fun c => by simp only [State.cls, classes]
  exact ⟨fun l => by rw [lane], fun h l => by rw [lane]; exact h l, fun h l => by rw [lane]; exact h l,
    fun h c => by rw [cls]; exact h c⟩

/-- The update of one lane's record. -/
theorem of_updLane {s : State} {l : Lane} {f : LaneState → LaneState} (number : (f (s.lane l)).number = (s.lane l).number)
    (tags : (s.lane l).tags.Nodup → (f (s.lane l)).tags.Nodup)
    (drain : (s.lane l).drainLaw → (f (s.lane l)).drainLaw) : ListsKept s (s.updLane l f) := by
  refine ⟨fun k => ?_, fun h k => ?_, fun h k => ?_, id⟩
  all_goals
    rw [updLane_lane]
    split
  · subst k; exact number
  · rfl
  · exact tags (h l)
  · exact h k
  · exact drain (h l)
  · exact h k

end ListsKept

/-! ### A request joins its list (R26) -/

/-- What `enlist` leaves outside the lane, its area and the storage. -/
theorem enlist_lane (rq : Request) (d : Decoded) (s : State) :
    ∃ q : Slot, q.tag = rq.tag ∧ ∃ n, (enlist rq d s).lane rq.lane =
      { s.lane rq.lane with slots := (s.lane rq.lane).slots ++ [q], credit := n } := by
  unfold enlist
  dsimp only
  split
  · exact ⟨newSlot rq (s.lane rq.lane).number d [], rfl, (s.lane rq.lane).credit, by simp⟩
  · exact ⟨newSlot rq (s.lane rq.lane).number d
      ((s.lane rq.lane).freeUnits (s.laneArea rq.lane).row.writeShare (unitsFor rq.length)), rfl,
      (s.lane rq.lane).credit - unitsFor rq.length, by simp⟩

theorem enlist_lane_ne (rq : Request) (d : Decoded) (s : State) {k : Lane} (h : k ≠ rq.lane) :
    (enlist rq d s).lane k = s.lane k := by
  unfold enlist
  dsimp only
  split
  · exact updLane_lane_ne s _ h
  · rw [withStaging_lane, updArea_lane]
    exact updLane_lane_ne s _ h

theorem enlist_classes (rq : Request) (d : Decoded) (s : State) : (enlist rq d s).classes = s.classes := by
  unfold enlist
  dsimp only
  split <;> rfl

/-- A tag that passed check 7 of R24 stands in no slot of the list. -/
theorem tag_fresh_of_slot? {r : LaneState} {tag : Tag} (h : r.slot? tag = none) : tag ∉ r.tags := by
  intro m
  obtain ⟨q, hq, rfl⟩ := List.mem_map.1 m
  exact absurd (List.find?_eq_none.1 h q hq) (by simp)

/-- What the nine checks of R24 have established when none fails. -/
structure State.Accepts (s : State) (rq : Request) : Prop where
  running : s.restarting = false
  active : (s.lane rq.lane).session = .active
  fresh : rq.tag ∉ (s.lane rq.lane).tags
  credit : rq.dir = .write → unitsFor rq.length ≤ (s.lane rq.lane).credit

theorem accepts_of_refusal {s : State} {rq : Request} (h : s.refusal rq = none) : s.Accepts rq := by
  unfold State.refusal at h
  dsimp only at h
  split at h; · cases h
  rename_i running
  split at h; · cases h
  rename_i joined
  split at h; · cases h
  split at h; · cases h
  rename_i notSuspended
  split at h; · cases h
  rename_i notDraining
  split at h; · cases h
  split at h; · cases h
  rename_i noTag
  split at h; · cases h
  split at h; · cases h
  rename_i noOverrun
  refine ⟨by simpa using running, ?_, tag_fresh_of_slot? (by simpa using noTag), fun write => ?_⟩
  · cases e : (s.lane rq.lane).session <;> simp_all
  · simpa [Request.overruns, write] using noOverrun

namespace ListsKept

theorem enlist {rq : Request} {s : State} (d : Decoded) (fresh : rq.tag ∉ (s.lane rq.lane).tags) :
    ListsKept s (enlist rq d s) := by
  obtain ⟨q, tag, n, lane⟩ := enlist_lane rq d s
  refine ⟨fun k => ?_, fun h k => ?_, fun h k => ?_, fun h c => ?_⟩
  · by_cases e : k = rq.lane
    · subst e; rw [lane]
    · rw [enlist_lane_ne rq d s e]
  · by_cases e : k = rq.lane
    · subst e
      rw [lane]
      show ((s.lane rq.lane).slots ++ [q]).map (·.tag) |>.Nodup
      rw [List.map_append, List.map_singleton, tag, ← List.concat_eq_append]
      exact (h rq.lane).concat fresh
    · rw [enlist_lane_ne rq d s e]
      exact h k
  · by_cases e : k = rq.lane
    · subst e; rw [lane]; exact h rq.lane
    · rw [enlist_lane_ne rq d s e]
      exact h k
  · have : (Machine.enlist rq d s).cls c = s.cls c := by simp only [State.cls, enlist_classes]
    rw [this]
    exact h c

theorem accept {rq : Request} {s : State} (h : s.refusal rq = none) : ListsKept s (accept rq s) := by
  refine (enlist (s.decode rq) (accepts_of_refusal h).fresh).trans (of_kept ?_)
  unfold Machine.accept
  dsimp only
  split
  · exact (completeSlot_inner _ _ _ _).kept.trans (report_kept _ _)
  · exact (completeSlot_inner _ _ _ _).kept
  · exact Kept.refl _
  · exact translateSlot_kept _ _ _

end ListsKept

/-! ### Link loss and the transmitter -/

theorem freeCutOff_inner (s : State) : Inner s (freeCutOff s) := by
  unfold freeCutOff
  repeat' split
  all_goals first | exact Inner.refl s | exact freeSlot_inner _ _ s

theorem emptySources_lane (s : State) (l : Lane) : (emptySources s).lane l = (s.lane l).emptySources := by
  simp [emptySources, State.lane]

namespace ListsKept

theorem emptySources (s : State) : ListsKept s (emptySources s) :=
  ⟨fun l => by rw [emptySources_lane]; rfl, fun h l => by rw [emptySources_lane]; exact h l,
    fun h l => by rw [emptySources_lane]; exact h l, id⟩

theorem linkLoss (s : State) : ListsKept s (linkLoss s) :=
  ((of_inner (freeCutOff_inner s)).trans (emptySources _)).trans
    (of_kept (((report_kept _ _).trans (forEach_inner _ silenceJoined_inner allLanes _).kept).trans
      (settleOp_inner _).kept))

theorem startItem (l : Lane) (x : StreamItem) (s : State) : ListsKept s (startItem l x s) := by
  unfold Machine.startItem
  split
  · split
    · exact (of_inner (updSlot_inner s l _ _ (by intro _; rfl))).trans (of_same rfl rfl)
    · exact refl s
  all_goals exact of_same rfl rfl

theorem startStream (l : Lane) (s : State) : ListsKept s (startStream l s) := by
  unfold Machine.startStream
  split
  · exact (of_same rfl rfl : ListsKept s (s.withLink fun k => { k with lastStream := l })).trans (startItem l _ _)
  · exact refl s

theorem startCredit (l : Lane) (s : State) : ListsKept s (startCredit l s) :=
  (of_updLane (f := fun r => { r with creditWaiting := none }) rfl id id).trans (of_same rfl rfl)

theorem startBelow (s : State) : ListsKept s (startBelow s) := by
  unfold Machine.startBelow
  split
  · exact of_same rfl rfl
  · split
    · exact startCredit _ s
    · split
      · exact startStream _ s
      · exact refl s

theorem startNext (s : State) : ListsKept s (startNext s) := by
  unfold Machine.startNext startNotice
  split
  · exact of_same rfl rfl
  · split
    · split
      · exact of_same rfl rfl
      · exact startBelow s
    · exact (of_same rfl rfl : ListsKept s (s.withFaults fun u => u.discardNotices 0)).trans (startBelow _)

theorem endItem (l : Lane) (x : StreamItem) (s : State) : ListsKept s (endItem l x s) := by
  unfold Machine.endItem
  split
  · exact of_inner ((freeSlot_inner l _ s).trans (afterLeaving_inner l _))
  · split
    · exact of_updLane rfl id id
    · exact refl s
  all_goals exact refl s

theorem endStream (l : Lane) (s : State) : ListsKept s (endStream l s) := by
  unfold Machine.endStream
  split
  · exact refl s
  · rename_i rest _
    exact (of_updLane (f := fun r => { r with stream := rest }) rfl id id).trans (endItem l _ _)

theorem endSource (source : TxSource) (s : State) : ListsKept s (endSource source s) := by
  unfold Machine.endSource
  split
  · exact (of_same rfl rfl : ListsKept s (s.withMgmt fun m => { m with reply := none })).trans
      (of_inner (settleOp_inner _))
  · exact of_same rfl rfl
  · exact of_same rfl rfl
  · exact refl s
  · exact endStream _ s

theorem transmissionEnd (s : State) : ListsKept s (transmissionEnd s) := by
  unfold Machine.transmissionEnd
  split
  · refine (of_same rfl rfl : ListsKept s (s.withLink fun k => { k with tx := none })).trans ?_
    exact endSource _ _
  · exact refl s

theorem countAll (s : State) : ListsKept s (countAll s) := by
  have cls : ∀ c, (Machine.countAll s).cls c = (s.cls c).countDown := fun c => by
    simp [Machine.countAll, State.cls]
  exact ⟨fun _ => rfl, id, id, fun h c => by rw [cls]; exact h c⟩

theorem openAnswered (l : Lane) (tag : Tag) (s : State) : ListsKept s (openAnswered l tag s) :=
  of_inner (openAnswered_inner l tag s)

theorem resume {l : Lane} {s : State} (suspended : (s.lane l).session = .suspended) :
    ListsKept s (grantRule l (s.updLane l fun r => { r with session := .active })) := by
  refine ListsKept.trans ?_ (of_inner (grantRule_inner l _))
  refine of_updLane rfl id fun law => ⟨⟨(fun e => by cases e), fun e => ?_⟩, law.2⟩
  exact absurd (law.1.2 e) (by rw [suspended]; decide)

end ListsKept

theorem stepRel_listsKept : StepRel ListsKept where
  refl := ListsKept.refl
  trans _ _ _ := ListsKept.trans
  queue _ _ := .of_same rfl rfl
  engine _ _ := .of_same rfl rfl
  faults _ _ := .of_same rfl rfl
  windows _ _ := .of_same rfl rfl
  portRow _ _ := .of_same rfl rfl
  link _ _ _ := .of_same rfl rfl
  suspend l s := .of_inner (suspendLane_inner l s)
  resume _ _ := .resume
  immediate l x s _ := .of_inner (handItem_inner l x s)
  openAnswered l tag s _ := .openAnswered l tag s
  silenceNew l s := .of_inner (silenceNew_inner l s)
  closeDrain l s := .of_inner (closeDrain_inner l s)
  accept _ _ := .accept
  agentRow _ _ _ _ _ := .of_same rfl rfl
  areaRow _ _ _ _ := .of_same rfl rfl
  class_ c f s keeps := by
    refine ⟨fun _ => rfl, id, id, fun h d => ?_⟩
    rw [updClass_cls]
    split
    · exact keeps (h c)
    · exact h d
  invalidate sc s := .of_inner (invalidateScope_inner sc s)
  finalChange s := .of_inner (finalChange_inner s)
  grant ids s := .of_kept (grant_kept ids s)
  response i st beats s := .of_kept (memoryResponse_kept i st beats s)
  timeout i s := .of_kept (responseTimeout_kept i s)
  linkLoss := .linkLoss
  startNext s _ := .startNext s
  transmissionEnd := .transmissionEnd
  count := .countAll

/-! ### JOIN -/

/-- What a session parcel comes to: nothing while the link is not UP, a report, or its act once a pending claim of its lane has
ended. -/
theorem sessionParcel_cases (l : Lane) (act : State → State) (s : State) :
    sessionParcel l act s = s
      ∨ sessionParcel l act s = report { cause := .refusalLost, lane := some l } (abandonClaim l s)
      ∨ sessionParcel l act s = act (abandonClaim l s) := by
  unfold sessionParcel
  split
  · exact .inl rfl
  · dsimp only
    split
    · exact .inr (.inl rfl)
    · exact .inr (.inr rfl)

/-- What JOIN comes to: an immediate reply, the accepted JOIN of a DETACHED lane, or a refusal with its report. -/
theorem takeJoin_cases (l : Lane) (tag : Tag) (identifier : BitVec 64) (s : State) :
    (∃ x, x.answers = none ∧ takeJoin l tag identifier s = handItem l x s)
      ∨ (s.lane l).session = .detached ∧ s.joinAccepts l identifier = true
        ∧ takeJoin l tag identifier s = grantRule l (s.updLane l fun r => r.join tag)
      ∨ ∃ x rep, x.answers = none ∧ takeJoin l tag identifier s = report rep (handItem l x s) := by
  unfold takeJoin
  split
  · exact .inl ⟨_, rfl, rfl⟩
  · split
    · exact .inl ⟨_, rfl, rfl⟩
    · split
      · rename_i detached accepts
        exact .inr (.inl ⟨by simpa using detached, accepts, rfl⟩)
      · exact .inr (.inr ⟨_, _, rfl, rfl⟩)

/-- The laws of the lists after a DETACHED lane has joined. -/
theorem join_listsLaws {l : Lane} {tag : Tag} {s : State} (detached : (s.lane l).session = .detached) :
    (TagLaw s → TagLaw (s.updLane l fun r => r.join tag)) ∧ (DrainLaw s → DrainLaw (s.updLane l fun r => r.join tag)) := by
  refine ⟨fun h k => ?_, fun h k => ?_⟩
  · rw [updLane_lane]
    split
    · exact h l
    · exact h k
  · rw [updLane_lane]
    split
    · have none_ : (s.lane l).drain = .none := by
        by_contra e
        exact absurd ((h l).1.2 e) (by rw [detached]; decide)
      have owed := (h l).2
      rw [none_] at owed
      exact ⟨⟨(fun e => by cases e), fun e => absurd rfl e⟩, owed⟩
    · exact h k

/-- What a JOIN parcel comes to: what each other operation comes to, or the accepted JOIN of a DETACHED lane after it. -/
theorem StepRel.join_cases {R : State → State → Prop} (h : StepRel R) (l : Lane) (tag : Tag) (identifier : BitVec 64)
    (s : State) :
    R s (Machine.sessionParcel l (takeJoin l tag identifier) s)
      ∨ ∃ u, R s u ∧ (u.lane l).session = .detached ∧ u.joinAccepts l identifier = true
        ∧ Machine.sessionParcel l (takeJoin l tag identifier) s = grantRule l (u.updLane l fun r => r.join tag) := by
  have before := h.abandonClaim l s
  rcases sessionParcel_cases l (takeJoin l tag identifier) s with e | e | e
  · exact .inl (by rw [e]; exact h.refl s)
  · exact .inl (e ▸ h.trans _ _ _ before (h.report _ _))
  · rw [e]
    rcases takeJoin_cases l tag identifier (Machine.abandonClaim l s) with
      ⟨x, immediate, e⟩ | ⟨detached, accepts, e⟩ | ⟨x, rep, immediate, e⟩
    · exact .inl (e ▸ h.trans _ _ _ before (h.immediate l x _ immediate))
    · exact .inr ⟨_, before, detached, accepts, e⟩
    · exact .inl (e ▸ h.trans _ _ _ before (h.trans _ _ _ (h.immediate l x _ immediate) (h.report rep _)))

/-- A JOIN leaves every session number but that of the lane it makes ACTIVE. -/
theorem join_number (l k : Lane) (tag : Tag) (identifier : BitVec 64) (s : State) :
    let t := sessionParcel l (takeJoin l tag identifier) s
    (t.lane k).number = (s.lane k).number
      ∨ k = l ∧ (t.lane l).number = (s.lane l).number + 1 ∧ (t.lane l).session = .active := by
  intro t
  rcases stepRel_listsKept.join_cases l tag identifier s with kept | ⟨u, before, _, _, e⟩
  · exact .inl (kept.number k)
  · rw [show t = _ from e]
    by_cases same : k = l
    · refine .inr ⟨same, ?_, ?_⟩
      · rw [(grantRule_inner l _).number, updLane_lane_self, ← before.number]
        rfl
      · rw [grantRule_lane, updLane_lane_self]
        split <;> rfl
    · refine .inl ?_
      rw [(grantRule_inner l _).number, updLane_lane_ne _ _ same, before.number]

/-- The laws of the lists and of the OPEN classes hold again after a JOIN. -/
theorem join_laws (l : Lane) (tag : Tag) (identifier : BitVec 64) (s : State) :
    let t := sessionParcel l (takeJoin l tag identifier) s
    (TagLaw s → TagLaw t) ∧ (DrainLaw s → DrainLaw t) ∧ (OpenLaw s → OpenLaw t) := by
  intro t
  rcases stepRel_listsKept.join_cases l tag identifier s with kept | ⟨u, before, detached, _, e⟩
  · exact ⟨kept.tags, kept.drain, kept.open_⟩
  · rw [show t = _ from e]
    have after := ListsKept.of_inner (grantRule_inner l (u.updLane l fun r => r.join tag))
    have joined := join_listsLaws (tag := tag) detached
    exact ⟨fun h => after.tags (joined.1 (before.tags h)), fun h => after.drain (joined.2 (before.drain h)),
      fun h => after.open_ (before.open_ h)⟩

end Sys2Proof.Machine

open Sys2Proof Sys2Proof.Machine in
/-- Settles O59: every command but JOIN and LINE_RESET keeps the numbers, as `ListsKept` says. -/
theorem sessionNumbersChangeAtJoinAlone : Obligations.SessionNumbersChangeAtJoinAlone := by
  intro s t l run
  rcases stepRel_listsKept.step run with kept | ⟨straps, rest, front, run⟩ | ⟨lane, tag, identifier, rest, front, run⟩
  · exact .inl (kept.number l)
  · refine .inr (.inr ⟨?_, straps, rest, front⟩)
    rw [← Host.Outcome.next.inj run]
    exact congrArg LaneState.number (reset_lane l)
  · have e : _ = t := Host.Outcome.next.inj run
    rw [← e]
    rcases join_number (laneOf lane) l tag identifier { s with pending := rest } with same | ⟨rfl, next, active⟩
    · exact .inl same
    · exact .inr (.inl ⟨next, active, lane, tag, identifier, rest, front, rfl⟩)
end

section
/-! The accounts, first part: the law of one lane with its area, and what each change of one slot does to it. -/

namespace Sys2Proof.Machine

/-! ### A slot in its list -/

/-- The number of ISSUED slots of a list. -/
def issuedIn (qs : List Slot) : Nat := (qs.filter fun q => q.stage == .issued).length

@[simp] theorem issuedIn_nil : issuedIn [] = 0 := rfl

theorem issuedIn_append (xs ys : List Slot) : issuedIn (xs ++ ys) = issuedIn xs + issuedIn ys := by
  simp [issuedIn]

theorem issuedIn_cons (q : Slot) (qs : List Slot) :
    issuedIn (q :: qs) = (if q.stage = .issued then 1 else 0) + issuedIn qs := by
  by_cases h : q.stage = .issued <;> simp [issuedIn, h, Nat.add_comm]

/-- The units that the slots of a list hold. -/
def unitsOf (qs : List Slot) : List Nat := qs.flatMap fun q => q.held.map (·.unit)

theorem unitsOf_append (xs ys : List Slot) : unitsOf (xs ++ ys) = unitsOf xs ++ unitsOf ys := by
  simp [unitsOf]

theorem unitsOf_cons (q : Slot) (qs : List Slot) : unitsOf (q :: qs) = q.held.map (·.unit) ++ unitsOf qs := rfl

@[simp] theorem unitsOf_nil : unitsOf [] = [] := rfl

/-- The slot of a tag splits the list; an update under its tag changes it alone, and to drop the tag leaves the rest. -/
theorem split_of_mem {qs : List Slot} {q : Slot} (tags : (qs.map (·.tag)).Nodup) (mem : q ∈ qs) :
    ∃ xs ys, qs = xs ++ q :: ys
      ∧ (∀ f : Slot → Slot, (qs.map fun p => if p.tag == q.tag then f p else p) = xs ++ f q :: ys)
      ∧ (qs.filter fun p => p.tag != q.tag) = xs ++ ys := by
  obtain ⟨xs, ys, rfl⟩ := List.append_of_mem mem
  rw [List.map_append, List.map_cons, List.nodup_append] at tags
  obtain ⟨_, later, apart⟩ := tags
  have left : ∀ p ∈ xs, p.tag ≠ q.tag := fun p hp =>
    apart _ (List.mem_map_of_mem hp) _ (List.mem_cons_self ..)
  have right : ∀ p ∈ ys, p.tag ≠ q.tag := fun p hp e =>
    (List.nodup_cons.1 later).1 (e ▸ List.mem_map_of_mem hp)
  have same : ∀ (zs : List Slot) (f : Slot → Slot), (∀ p ∈ zs, p.tag ≠ q.tag) →
      (zs.map fun p => if p.tag == q.tag then f p else p) = zs := fun zs f h => by
    conv_rhs => rw [← List.map_id zs]
    exact List.map_congr_left fun p hp => by simp [h p hp]
  have kept : ∀ zs : List Slot, (∀ p ∈ zs, p.tag ≠ q.tag) → (zs.filter fun p => p.tag != q.tag) = zs :=
    fun zs h => List.filter_eq_self.2 fun p hp => by simp [h p hp]
  refine ⟨xs, ys, rfl, fun f => ?_, ?_⟩
  · rw [List.map_append, List.map_cons, same xs f left, same ys f right]
    simp
  · rw [List.filter_append, List.filter_cons, kept xs left, kept ys right]
    simp

/-- A slot that stands in a list without two of one tag is the one that is found under its tag. -/
theorem slot?_of_mem {r : LaneState} {q : Slot} (tags : r.tags.Nodup) (mem : q ∈ r.slots) : r.slot? q.tag = some q := by
  cases e : r.slot? q.tag with
  | none => exact absurd (List.mem_map_of_mem mem) (tag_fresh_of_slot? e)
  | some p =>
    have := List.inj_on_of_nodup_map tags (slot?_mem e) mem (slot?_tag e)
    rw [this]

/-! ### The law of a lane -/

/-- The units of a slot lie in its direction's share of the area, and a READ that has not issued holds none (R91, R95). -/
structure Slot.InShare (q : Slot) (row : AreaRow) : Prop where
  write : q.dir = .write → ∀ u ∈ q.held, row.firstUnit ≤ u.unit ∧ u.unit < row.firstUnit + row.writeUnits
  read : q.dir = .read → ∀ u ∈ q.held,
    row.firstUnit + row.writeUnits ≤ u.unit ∧ u.unit < row.firstUnit + row.writeUnits + row.readUnits
  unissued : q.dir = .read → q.stage = .translating ∨ q.stage = .queued → q.held = []

/-- The counts of an area are those of the slots, within its shares with the credit (R91, R94). -/
structure Area.CountsOf (a : Area) (qs : List Slot) (credit : Nat) : Prop where
  occupied : a.writeOccupied = unitsHeld .write (fun _ => true) qs
  reserved : a.readReserved = unitsHeld .read (fun u => !u.filled) qs
  filled : a.readFilled = unitsHeld .read (·.filled) qs
  writeShare : a.writeOccupied + credit ≤ a.row.writeUnits
  readShare : a.readReserved + a.readFilled ≤ a.row.readUnits

/-- The laws of the accounts that look at one lane, its agent row and its area alone, the stream apart. -/
structure LaneLaws (row : AgentRow) (a : Area) (r : LaneState) : Prop where
  tags : r.tags.Nodup
  away : r.session = .detached → r.slots = [] ∧ r.issued = 0 ∧ r.credit = 0
  enabled : r.session ≠ .detached → row.enabled = true
  issued : r.issued = issuedIn r.slots
  issuedLe : r.issued ≤ row.maxOutstanding
  units : (unitsOf r.slots).Nodup
  shares : ∀ q ∈ r.slots, q.InShare a.row
  counts : r.session ≠ .detached → a.CountsOf r.slots r.credit

/-- A record that differs where no account looks. -/
theorem LaneLaws.congr {row : AgentRow} {a : Area} {r p : LaneState} (h : LaneLaws row a r)
    (session : p.session = .detached ↔ r.session = .detached) (slots : p.slots = r.slots) (issued : p.issued = r.issued)
    (credit : p.credit = r.credit) : LaneLaws row a p where
  tags := by unfold LaneState.tags; rw [slots]; exact h.tags
  away e := by rw [slots, issued, credit]; exact h.away (session.1 e)
  enabled e := h.enabled fun x => e (session.2 x)
  issued := by rw [issued, slots]; exact h.issued
  issuedLe := issued ▸ h.issuedLe
  units := slots ▸ h.units
  shares := slots ▸ h.shares
  counts e := by rw [slots, credit]; exact h.counts fun x => e (session.2 x)

/-- One slot of the list replaced by another of its tag. -/
theorem LaneLaws.replace {row : AgentRow} {a b : Area} {r p : LaneState} {xs ys : List Slot} {q q' : Slot}
    (h : LaneLaws row a r) (joined : r.session ≠ .detached) (before : r.slots = xs ++ q :: ys)
    (after : p.slots = xs ++ q' :: ys) (tag : q'.tag = q.tag) (session : p.session = r.session)
    (issued : p.issued + issuedIn [q] = r.issued + issuedIn [q']) (issuedLe : p.issued ≤ row.maxOutstanding)
    (area : b.row = a.row) (units : (unitsOf p.slots).Nodup) (share : q'.InShare a.row)
    (counts : b.CountsOf p.slots p.credit) : LaneLaws row b p where
  tags := by
    have := h.tags
    unfold LaneState.tags at this ⊢
    rw [before] at this
    rw [after]
    simpa [tag] using this
  away e := absurd (session ▸ e) joined
  enabled _ := h.enabled joined
  issued := by
    have := h.issued
    rw [before] at this
    rw [after]
    simp only [issuedIn_append, issuedIn_cons, issuedIn_nil] at this issued ⊢
    omega
  issuedLe := issuedLe
  units := units
  shares x hx := by
    rw [area]
    rw [after] at hx
    rcases List.mem_append.1 hx with hx | hx
    · exact h.shares x (by rw [before]; exact List.mem_append_left _ hx)
    · rcases List.mem_cons.1 hx with rfl | hx
      · exact share
      · exact h.shares x (by rw [before]; exact List.mem_append_right _ (List.mem_cons_of_mem _ hx))
  counts _ := counts

/-- One slot of the list dropped, which holds no unit any more. -/
theorem LaneLaws.drop {row : AgentRow} {a : Area} {r p : LaneState} {xs ys : List Slot} {q : Slot}
    (h : LaneLaws row a r) (joined : r.session ≠ .detached) (before : r.slots = xs ++ q :: ys)
    (after : p.slots = xs ++ ys) (empty : q.held = []) (session : p.session = r.session)
    (issued : p.issued + issuedIn [q] = r.issued) (credit : p.credit = r.credit) : LaneLaws row a p where
  tags := by
    have := h.tags
    unfold LaneState.tags at this ⊢
    rw [before] at this
    rw [after]
    refine this.sublist ?_
    simp
  away e := absurd (session ▸ e) joined
  enabled _ := h.enabled joined
  issued := by
    have := h.issued
    rw [before] at this
    rw [after]
    simp only [issuedIn_append, issuedIn_cons, issuedIn_nil] at this issued ⊢
    omega
  issuedLe := by have := h.issuedLe; omega
  units := by
    have := h.units
    rw [before] at this
    rw [after]
    simpa [unitsOf_append, unitsOf_cons, empty] using this
  shares x hx := by
    refine h.shares x ?_
    rw [before]
    rw [after] at hx
    rcases List.mem_append.1 hx with hx | hx
    · exact List.mem_append_left _ hx
    · exact List.mem_append_right _ (List.mem_cons_of_mem _ hx)
  counts _ := by
    obtain ⟨occupied, reserved, filled, writeShare, readShare⟩ := h.counts joined
    rw [before] at occupied reserved filled
    simp only [unitsHeld_append, unitsHeld_cons, empty, List.filter_nil, List.length_nil, ite_self, Nat.zero_add]
      at occupied reserved filled
    rw [after, credit]
    exact ⟨by rw [unitsHeld_append]; exact occupied, by rw [unitsHeld_append]; exact reserved,
      by rw [unitsHeld_append]; exact filled, writeShare, readShare⟩

/-! ### Slots that differ where no unit is counted -/

/-- A slot with the tag, the direction and the units of another. -/
structure Slot.SameUnits (q p : Slot) : Prop where
  tag : p.tag = q.tag
  dir : p.dir = q.dir
  held : p.held = q.held

theorem unitsHeld_replace {q p : Slot} (h : q.SameUnits p) (dir : Dir) (c : HeldUnit → Bool) (xs ys : List Slot) :
    unitsHeld dir c (xs ++ p :: ys) = unitsHeld dir c (xs ++ q :: ys) := by
  simp only [unitsHeld_append, unitsHeld_cons, h.dir, h.held]

theorem unitsOf_replace {q p : Slot} (h : q.SameUnits p) (xs ys : List Slot) :
    unitsOf (xs ++ p :: ys) = unitsOf (xs ++ q :: ys) := by
  simp only [unitsOf_append, unitsOf_cons, h.held]

theorem Area.CountsOf.sameUnits {a : Area} {q p : Slot} {xs ys : List Slot} {credit : Nat} (h : q.SameUnits p)
    (counts : a.CountsOf (xs ++ q :: ys) credit) : a.CountsOf (xs ++ p :: ys) credit :=
  ⟨by rw [unitsHeld_replace h]; exact counts.occupied, by rw [unitsHeld_replace h]; exact counts.reserved,
    by rw [unitsHeld_replace h]; exact counts.filled, counts.writeShare, counts.readShare⟩

theorem Slot.InShare.sameUnits {row : AreaRow} {q p : Slot} (h : q.SameUnits p) (share : q.InShare row)
    (stage : p.stage = .translating ∨ p.stage = .queued → q.stage = .translating ∨ q.stage = .queued) :
    p.InShare row :=
  ⟨fun e => by rw [h.held]; exact share.write (h.dir ▸ e), fun e => by rw [h.held]; exact share.read (h.dir ▸ e),
    fun e x => by rw [h.held]; exact share.unissued (h.dir ▸ e) (stage x)⟩

/-- One slot replaced by one with its units. -/
theorem LaneLaws.sameUnits {row : AgentRow} {a : Area} {r p : LaneState} {xs ys : List Slot} {q q' : Slot}
    (h : LaneLaws row a r) (joined : r.session ≠ .detached) (before : r.slots = xs ++ q :: ys)
    (after : p.slots = xs ++ q' :: ys) (same : q.SameUnits q') (session : p.session = r.session)
    (credit : p.credit = r.credit)
    (stage : q'.stage = .translating ∨ q'.stage = .queued → q.stage = .translating ∨ q.stage = .queued)
    (issued : p.issued + issuedIn [q] = r.issued + issuedIn [q']) (issuedLe : p.issued ≤ row.maxOutstanding) :
    LaneLaws row a p := by
  refine h.replace joined before after same.tag session issued issuedLe rfl ?_ ?_ ?_
  · rw [after, unitsOf_replace same, ← before]
    exact h.units
  · exact (h.shares q (by simp [before])).sameUnits same stage
  · rw [after, credit]
    exact Area.CountsOf.sameUnits same (before ▸ h.counts joined)

/-! ### Units given back -/

/-- Units that leave a slot are counted out of it. -/
theorem filter_not_length {α : Type} (p : α → Bool) (xs : List α) :
    (xs.filter p).length + (xs.filter fun x => !p x).length = xs.length := by
  induction xs with
  | nil => rfl
  | cons x xs ih => cases h : p x <;> simp [h] <;> omega

/-- The counts of an area once one of its lane's slots has given back the units that a test picks (R93, R97). -/
theorem Area.CountsOf.release {a : Area} {q : Slot} {xs ys : List Slot} {credit : Nat} (gone : HeldUnit → Bool)
    (counts : a.CountsOf (xs ++ q :: ys) credit) :
    (a.release q.dir (q.held.filter gone)).CountsOf
      (xs ++ { q with held := q.held.filter fun u => !gone u } :: ys) credit := by
  obtain ⟨occupied, reserved, filled, writeShare, readShare⟩ := counts
  have all := filter_not_length gone q.held
  have kept := filter_not_length gone (q.held.filter (·.filled))
  have empty := filter_not_length gone (q.held.filter fun u => !u.filled)
  have split := filter_not_length (·.filled) (q.held.filter gone)
  rw [List.filter_comm] at kept empty
  rw [List.filter_comm (fun u => !gone u)] at kept empty
  simp only [unitsHeld_append, unitsHeld_cons] at occupied reserved filled
  cases dir : q.dir <;>
    simp only [dir, reduceCtorEq, if_true, if_false, List.filter_true] at occupied reserved filled <;>
    constructor <;>
    simp only [Area.release, unitsHeld_append, unitsHeld_cons, reduceCtorEq, if_true, if_false,
      List.filter_true] <;>
    omega

/-- The record of a lane whose slot has given back units, with the area's counts. -/
theorem LaneLaws.release {row : AgentRow} {a : Area} {r p : LaneState} {xs ys : List Slot} {q : Slot}
    (gone : HeldUnit → Bool) (h : LaneLaws row a r) (joined : r.session ≠ .detached) (before : r.slots = xs ++ q :: ys)
    (after : p.slots = xs ++ { q with held := q.held.filter fun u => !gone u } :: ys) (session : p.session = r.session)
    (issued : p.issued = r.issued) (credit : p.credit = r.credit) :
    LaneLaws row (a.release q.dir (q.held.filter gone)) p := by
  have rows : (a.release q.dir (q.held.filter gone)).row = a.row := by cases q.dir <;> rfl
  have share := h.shares q (by simp [before])
  have sub : ∀ u ∈ q.held.filter fun u => !gone u, u ∈ q.held := fun u hu => (List.mem_filter.1 hu).1
  refine h.replace joined before after rfl session (by simp only [issued, issuedIn_cons]) (issued ▸ h.issuedLe) rows ?_
    ⟨fun e u hu => share.write e u (sub u hu), fun e u hu => share.read e u (sub u hu), fun e x => ?_⟩ ?_
  · have := h.units
    rw [before] at this
    rw [after]
    refine this.sublist ?_
    simp only [unitsOf_append, unitsOf_cons]
    exact ((List.filter_sublist.map _).append (List.Sublist.refl _)).append_left _
  · show List.filter _ q.held = []
    rw [share.unissued e x]
    rfl
  · rw [after, credit]
    exact (before ▸ h.counts joined : a.CountsOf _ _).release gone

end Sys2Proof.Machine
end

section
/-! The accounts, second part: the account law without the streams, and how it follows one lane's change. -/

namespace Sys2Proof.Machine

/-! ### What waits for a slot, and what answers to it -/

/-- This slot is the TRANSLATING one whose piece waits (R28). -/
def Slot.Waits (q : Slot) (p : PieceRef) : Prop :=
  q.tag = p.tag ∧ q.stage = .translating ∧ ∃ x ∈ q.pieces[p.place]?.toList, x.xlat = .waiting

/-- This slot is the ISSUED one whose PENDING piece an id answers to (R31, R121). -/
def Slot.Pends (q : Slot) (i : MemId) (y : PieceRef × Dir) : Prop :=
  q.tag = y.1.tag ∧ q.stage = .issued ∧ q.dir = y.2
    ∧ ∃ x ∈ q.pieces[y.1.place]?.toList, x.status = .pending ∧ x.memId = some i

/-- The account law but for the streams: the laws of each lane, of the agent rows and idle areas, of the indexes, of the waiters
and of the ids. -/
structure BaseLaw (s : State) : Prop where
  lane : ∀ l, LaneLaws (s.agent l) (s.area (s.agent l).area) (s.lane l)
  apart : ∀ l k, (s.agent l).enabled = true → (s.agent k).enabled = true → (s.agent l).area = (s.agent k).area → l = k
  idle : ∀ a, (∀ l, (s.lane l).session ≠ .detached → (s.agent l).area ≠ a) →
    (s.area a).writeOccupied = 0 ∧ (s.area a).readReserved = 0 ∧ (s.area a).readFilled = 0
  indexes : IndexLaw s
  waiters : WaiterLaw s
  ids : IdLaw s

theorem AccountLaw.base {s : State} (h : AccountLaw s) : BaseLaw s where
  lane l :=
    { tags := h.tags l
      away := h.lanes.1 l
      enabled := h.lanes.2.1 l
      issued := (h.issued l).1
      issuedLe := (h.issued l).2
      units := (h.units l).1
      shares := fun q hq =>
        have ⟨write, read, unissued⟩ := (h.units l).2 q hq
        ⟨write, read, unissued⟩
      counts := fun joined =>
        have ⟨occupied, reserved, filled, writeShare, readShare⟩ := h.counts.1 l joined
        ⟨occupied, reserved, filled, writeShare, readShare⟩ }
  apart := h.lanes.2.2
  idle := h.counts.2
  indexes := h.indexes
  waiters := h.waiters
  ids := h.ids

theorem BaseLaw.account {s : State} (h : BaseLaw s) (streams : StreamLaw s) : AccountLaw s where
  tags l := (h.lane l).tags
  lanes := ⟨fun l => (h.lane l).away, fun l => (h.lane l).enabled, h.apart⟩
  issued l := ⟨(h.lane l).issued, (h.lane l).issuedLe⟩
  streams := streams
  indexes := h.indexes
  waiters := h.waiters
  ids := h.ids
  units l := ⟨(h.lane l).units, fun q hq =>
    have share := (h.lane l).shares q hq
    ⟨share.write, share.read, share.unissued⟩⟩
  counts := ⟨fun l joined =>
    have counts := (h.lane l).counts joined
    ⟨counts.occupied, counts.reserved, counts.filled, counts.writeShare, counts.readShare⟩, h.idle⟩

/-! ### One lane changes -/

/-- Two states that differ, of what the lane laws look at, in one lane and its area at most. -/
structure OneLane (l : Lane) (s t : State) : Prop where
  agents : t.agents = s.agents
  lanes : ∀ k, k ≠ l → t.lane k = s.lane k
  areas : ∀ b, b ≠ (s.agent l).area → t.area b = s.area b

theorem OneLane.agent {l : Lane} {s t : State} (h : OneLane l s t) (k : Lane) : t.agent k = s.agent k := by
  unfold State.agent; rw [h.agents]

theorem OneLane.trans {l : Lane} {s t u : State} (a : OneLane l s t) (b : OneLane l t u) : OneLane l s u where
  agents := b.agents.trans a.agents
  lanes k hk := (b.lanes k hk).trans (a.lanes k hk)
  areas x hx := (b.areas x (by rw [a.agent]; exact hx)).trans (a.areas x hx)

theorem oneLane_updLane (s : State) (l : Lane) (f : LaneState → LaneState) : OneLane l s (s.updLane l f) :=
  ⟨rfl, fun _ hk => updLane_lane_ne s f hk, fun _ _ => rfl⟩

/-- A lane without slots, issued requests and credit keeps its laws in any area. -/
theorem LaneLaws.anyArea {row : AgentRow} {a b : Area} {r : LaneState} (h : LaneLaws row a r)
    (away : r.session = .detached) : LaneLaws row b r :=
  { h with
    shares := fun q hq => by rw [(h.away away).1] at hq; cases hq
    counts := fun joined => absurd away joined }

/-- The laws of the lanes and areas after one lane's change, where the lane stays joined. -/
theorem BaseLaw.of_lane {s t : State} {l : Lane} (h : BaseLaw s) (one : OneLane l s t)
    (joined : (s.lane l).session ≠ .detached)
    (lane : LaneLaws (s.agent l) (t.area (s.agent l).area) (t.lane l)) (stays : (t.lane l).session ≠ .detached)
    (indexes : IndexLaw t) (waiters : WaiterLaw t) (ids : IdLaw t) : BaseLaw t where
  lane k := by
    rw [one.agent]
    by_cases e : k = l
    · subst e; exact lane
    · rw [one.lanes k e]
      by_cases away : (s.lane k).session = .detached
      · exact (h.lane k).anyArea away
      · have other : (s.agent k).area ≠ (s.agent l).area := fun same =>
          e (h.apart k l ((h.lane k).enabled away) ((h.lane l).enabled joined) same)
        rw [one.areas _ other]
        exact h.lane k
  apart j k := by rw [one.agent, one.agent]; exact h.apart j k
  idle a none_ := by
    have away : a ≠ (s.agent l).area := fun e => none_ l stays (by rw [one.agent, e])
    rw [one.areas a away]
    refine h.idle a fun k hk => ?_
    by_cases e : k = l
    · subst e; exact Ne.symm away
    · have := none_ k (by rw [one.lanes k e]; exact hk)
      rwa [one.agent] at this
  indexes := indexes
  waiters := waiters
  ids := ids

theorem walk_congr {s t : State} (xlat : t.xlat = s.xlat) : t.walk = s.walk := by
  funext w
  simp only [State.walk, xlat]

theorem allWaiters_congr {s t : State} (xlat : t.xlat = s.xlat) : t.allWaiters = s.allWaiters := by
  unfold State.allWaiters
  rw [walk_congr xlat, xlat]

theorem IndexLaw.congr {s t : State} (h : IndexLaw s) (xlat : t.xlat = s.xlat) : IndexLaw t := by
  unfold IndexLaw
  rw [walk_congr xlat, xlat]
  exact h

/-- Waiters after a change of one lane that leaves the walks. -/
theorem WaiterLaw.of_lane {s t : State} {l : Lane} (h : WaiterLaw s) (xlat : t.xlat = s.xlat)
    (lanes : ∀ k, k ≠ l → t.lane k = s.lane k)
    (waits : ∀ p ∈ s.allWaiters, p.lane = l → (∃ q ∈ (s.lane l).slots, q.Waits p) → ∃ q ∈ (t.lane l).slots, q.Waits p) :
    WaiterLaw t := by
  have same := allWaiters_congr xlat
  obtain ⟨once, stand, wait⟩ := h
  refine ⟨same ▸ once, fun p hp => ?_, by rw [xlat]; exact wait⟩
  rw [same] at hp
  by_cases e : p.lane = l
  · have := waits p hp e (e ▸ stand p hp)
    rw [e]
    exact this
  · rw [lanes _ e]
    exact stand p hp

/-- Ids after a change of one lane: each id in use for a piece was so before. -/
theorem IdLaw.of_lane {s t : State} {l : Lane} (h : IdLaw s) (lanes : ∀ k, k ≠ l → t.lane k = s.lane k)
    (ids : ∀ i, ∀ y ∈ (t.memId i).piece?.toList, y ∈ (s.memId i).piece?.toList)
    (pends : ∀ i, ∀ y ∈ (t.memId i).piece?.toList, y.1.lane = l → (∃ q ∈ (s.lane l).slots, q.Pends i y) →
      ∃ q ∈ (t.lane l).slots, q.Pends i y) : IdLaw t := by
  intro i y hy
  have before := h i y (ids i y hy)
  by_cases e : y.1.lane = l
  · have := pends i y hy e (e ▸ before)
    rw [e]
    exact this
  · rw [lanes _ e]
    exact before

/-! ### Changes of one slot -/

/-- A slot that waits stands in the list after an update that keeps those that wait. -/
theorem exists_map_upd {P : Slot → Prop} {f : Slot → Slot} {tag : Tag} {qs : List Slot}
    (keeps : ∀ q ∈ qs, q.tag = tag → P q → P (f q)) (h : ∃ q ∈ qs, P q) :
    ∃ q ∈ (qs.map fun q => if q.tag == tag then f q else q), P q := by
  obtain ⟨q, hq, hp⟩ := h
  refine ⟨_, List.mem_map_of_mem hq, ?_⟩
  by_cases e : q.tag = tag
  · rw [if_pos (by simpa using e)]; exact keeps q hq e hp
  · rw [if_neg (by simpa using e)]; exact hp

/-- A slot of another tag stands in the list after one is dropped. -/
theorem exists_filter_tag {P : Slot → Prop} {tag : Tag} {qs : List Slot} (other : ∀ q ∈ qs, P q → q.tag ≠ tag)
    (h : ∃ q ∈ qs, P q) : ∃ q ∈ (qs.filter fun q => q.tag != tag), P q := by
  obtain ⟨q, hq, hp⟩ := h
  exact ⟨q, List.mem_filter.2 ⟨hq, by simpa using other q hq hp⟩, hp⟩

/-- A list without a slot of this tag is left by an update under it. -/
theorem updSlot_absent {r : LaneState} {tag : Tag} {f : Slot → Slot} (h : r.slot? tag = none) : r.updSlot tag f = r := by
  have : (r.slots.map fun q => if q.tag == tag then f q else q) = r.slots := by
    conv_rhs => rw [← List.map_id r.slots]
    refine List.map_congr_left fun q hq => ?_
    have : ¬(q.tag == tag) = true := List.find?_eq_none.1 h q hq
    simp [this]
  unfold LaneState.updSlot
  rw [this]

theorem updLane_self {s : State} {l : Lane} {f : LaneState → LaneState} (h : f (s.lane l) = s.lane l) :
    s.updLane l f = s := by
  rw [updLane_eq_setLane, h, setLane_lane_eq]

/-- An update under a tag that no slot of the lane has changes nothing. -/
theorem updSlot_of_none {s : State} {l : Lane} {tag : Tag} {f : Slot → Slot} (h : s.slot? l tag = none) :
    s.updSlot l tag f = s := updLane_self (updSlot_absent h)

/-- A lane with a slot holds its session. -/
theorem BaseLaw.joined_of_mem {s : State} (h : BaseLaw s) {l : Lane} {q : Slot} (hq : q ∈ (s.lane l).slots) :
    (s.lane l).session ≠ .detached := fun away => by
  rw [((h.lane l).away away).1] at hq
  cases hq

theorem BaseLaw.joined_of_slot? {s : State} (h : BaseLaw s) {l : Lane} {tag : Tag} {q : Slot}
    (hq : s.slot? l tag = some q) : (s.lane l).session ≠ .detached := h.joined_of_mem (slot?_mem hq)

/-- An update of one slot that keeps its units, that leaves no ISSUED slot nor makes one, and that keeps what waits for it and
answers to it. -/
theorem BaseLaw.updSlot {s : State} (h : BaseLaw s) {l : Lane} {tag : Tag} {f : Slot → Slot}
    (same : ∀ q : Slot, q.SameUnits (f q))
    (stage : ∀ q, s.slot? l tag = some q →
      ((f q).stage = .issued ↔ q.stage = .issued)
        ∧ ((f q).stage = .translating ∨ (f q).stage = .queued → q.stage = .translating ∨ q.stage = .queued))
    (waits : ∀ q, s.slot? l tag = some q → ∀ p ∈ s.allWaiters, p.lane = l → q.Waits p → (f q).Waits p)
    (pends : ∀ q, s.slot? l tag = some q → ∀ i, ∀ y ∈ (s.memId i).piece?.toList, y.1.lane = l → q.Pends i y →
      (f q).Pends i y) : BaseLaw (s.updSlot l tag f) := by
  cases found : s.slot? l tag with
  | none => rw [updSlot_of_none found]; exact h
  | some q =>
    have joined := h.joined_of_slot? found
    have tagged := slot?_tag found
    subst tagged
    obtain ⟨xs, ys, before, upd, _⟩ := split_of_mem (h.lane l).tags (slot?_mem found)
    have lane : (s.updSlot l q.tag f).lane l = (s.lane l).updSlot q.tag f := updSlot_lane_self s l q.tag f
    have one : OneLane l s (s.updSlot l q.tag f) := oneLane_updLane s l _
    have found_of : ∀ p ∈ (s.lane l).slots, p.tag = q.tag → s.slot? l q.tag = some p := fun p hp e =>
      e ▸ slot?_of_mem (h.lane l).tags hp
    refine h.of_lane one joined ?_ (by rw [lane]; exact joined) h.indexes ?_ ?_
    · rw [lane]
      refine (h.lane l).sameUnits joined before (upd f) (same q) rfl rfl (stage q found).2 ?_ (h.lane l).issuedLe
      have := (stage q found).1
      simp only [issuedIn_cons, issuedIn_nil, this]
      rfl
    · refine h.waiters.of_lane rfl one.lanes fun p hp e stands => ?_
      rw [lane]
      exact exists_map_upd (fun x hx t w => waits x (found_of x hx t) p hp e w) stands
    · refine h.ids.of_lane one.lanes (fun _ _ => id) fun i y hy e stands => ?_
      rw [lane]
      exact exists_map_upd (fun x hx t w => pends x (found_of x hx t) i y hy e w) stands

/-! ### The grant rule and units given back -/

/-- A change of one lane's record that keeps its list: the law is kept when the lane's own laws are. -/
theorem BaseLaw.of_record {s t : State} {l : Lane} (h : BaseLaw s) (one : OneLane l s t)
    (joined : (s.lane l).session ≠ .detached) (slots : (t.lane l).slots = (s.lane l).slots) (xlat : t.xlat = s.xlat)
    (port : t.port = s.port) (lane : LaneLaws (s.agent l) (t.area (s.agent l).area) (t.lane l))
    (stays : (t.lane l).session ≠ .detached) : BaseLaw t := by
  have id_ : ∀ i, t.memId i = s.memId i := fun i => by simp only [State.memId, port]
  refine h.of_lane one joined lane stays (h.indexes.congr xlat) ?_ ?_
  · exact h.waiters.of_lane xlat one.lanes fun p _ _ stands => by rw [slots]; exact stands
  · exact h.ids.of_lane one.lanes (fun i y hy => by rwa [id_] at hy) fun i y _ _ stands => by rw [slots]; exact stands

theorem BaseLaw.grantRule {s : State} (h : BaseLaw s) (l : Lane) : BaseLaw (grantRule l s) := by
  unfold Machine.grantRule
  split
  · rename_i due
    have active : (s.lane l).session = .active := by
      unfold State.grantDue at due
      rw [Bool.and_eq_true, Bool.and_eq_true] at due
      simpa using due.1.1
    have joined : (s.lane l).session ≠ .detached := by rw [active]; decide
    have laws := h.lane l
    have counts := laws.counts joined
    refine h.of_record (oneLane_updLane s l _) joined (by rw [updLane_lane_self]) rfl rfl ?_
      (by rw [updLane_lane_self]; exact joined)
    rw [updLane_lane_self]
    refine { laws with away := fun e => absurd e joined, counts := fun _ => { counts with writeShare := ?_ } }
    have := counts.writeShare
    show (s.area (s.agent l).area).writeOccupied + ((s.lane l).credit + s.ungranted l)
      ≤ (s.area (s.agent l).area).row.writeUnits
    unfold State.ungranted State.laneArea
    omega
  · exact h

theorem oneLane_unitsReleased (l : Lane) (tag : Tag) (gone : HeldUnit → Bool) (q : Slot) (s : State) :
    OneLane l s (unitsReleased l tag gone q s) :=
  ⟨rfl, fun k hk => by rw [unitsReleased_lane, if_neg hk], fun b hb => by rw [unitsReleased_area, if_neg hb]⟩

theorem BaseLaw.releaseUnits {s : State} (h : BaseLaw s) (l : Lane) (tag : Tag) (gone : HeldUnit → Bool) :
    BaseLaw (releaseUnits l tag gone s) := by
  cases found : s.slot? l tag with
  | none => unfold Machine.releaseUnits; rw [found]; exact h
  | some q =>
    have released : BaseLaw (unitsReleased l tag gone q s) := by
      have joined := h.joined_of_slot? found
      have tagged := slot?_tag found
      subst tagged
      obtain ⟨xs, ys, before, upd, _⟩ := split_of_mem (h.lane l).tags (slot?_mem found)
      have one := oneLane_unitsReleased l q.tag gone q s
      have lane : (unitsReleased l q.tag gone q s).lane l = _ := unitsReleased_lane l q.tag gone q s l
      rw [if_pos rfl] at lane
      refine h.of_lane one joined ?_ (by rw [lane]; exact joined) h.indexes ?_ ?_
      · rw [unitsReleased_area, if_pos rfl, lane]
        exact (h.lane l).release gone joined before (upd _) rfl rfl rfl
      · refine h.waiters.of_lane rfl one.lanes fun p hp e stands => ?_
        rw [lane]
        exact exists_map_upd (fun _ _ _ w => w) stands
      · refine h.ids.of_lane one.lanes (fun _ _ => id) fun i y hy e stands => ?_
        rw [lane]
        exact exists_map_upd (fun _ _ _ w => w) stands
    rw [releaseUnits_eq gone found]
    split
    · exact released.grantRule l
    · exact released

end Sys2Proof.Machine
end

section
/-! The accounts, third part: the law of the streams, lane by lane. -/

namespace Sys2Proof.Machine

/-- The tags of the answers in a lane's stream. -/
def LaneState.answered (r : LaneState) : List Tag := r.stream.filterMap StreamItem.answers

/-- A stream holds at most one answer, that of the head of the list, COMPLETE or SENDING; when its head is in transmission there
is one, and the slot that it answers is SENDING (R10, R35, R37). -/
structure LaneState.StreamOk (r : LaneState) (started : Prop) : Prop where
  one : r.answered.length ≤ 1
  head : ∀ tag ∈ r.answered, ∃ q ∈ r.slots.head?.toList, q.tag = tag ∧ (q.stage = .complete ∨ q.stage = .sending)
  sending : started → r.stream ≠ []
    ∧ ∀ tag ∈ (r.stream.head?.bind StreamItem.answers).toList, ∃ q ∈ r.slots, q.tag = tag ∧ q.stage = .sending

/-- The head of a lane's stream is in transmission. -/
def LinkPort.Started (k : LinkPort) (l : Lane) : Prop := ∃ x ∈ k.tx.toList, x.source = .stream l

theorem streamLaw_iff {s : State} : StreamLaw s ↔ ∀ l, (s.lane l).StreamOk (s.link.Started l) := by
  constructor
  · rintro ⟨lanes, sending⟩ l
    exact ⟨(lanes l).1, (lanes l).2, fun ⟨x, hx, e⟩ => sending x hx l e⟩
  · intro h
    exact ⟨fun l => ⟨(h l).one, (h l).head⟩, fun x hx l e => (h l).sending ⟨x, hx, e⟩⟩

/-- Streams after a change of one lane. -/
theorem StreamLaw.of_lane {s t : State} {l : Lane} (h : StreamLaw s) (lanes : ∀ k, k ≠ l → t.lane k = s.lane k)
    (link : t.link.tx = s.link.tx) (lane : (s.lane l).StreamOk (s.link.Started l) → (t.lane l).StreamOk (s.link.Started l)) :
    StreamLaw t := by
  rw [streamLaw_iff] at h ⊢
  intro k
  have started : t.link.Started k = s.link.Started k := by simp only [LinkPort.Started, link]
  rw [started]
  by_cases e : k = l
  · subst e; exact lane (h k)
  · rw [lanes k e]; exact h k

/-- Streams after a change where no stream looks. -/
theorem StreamLaw.congr {s t : State} (h : StreamLaw s) (lanes : t.lanes = s.lanes) (link : t.link.tx = s.link.tx) :
    StreamLaw t :=
  h.of_lane (l := 0) (fun k _ => by simp only [State.lane, lanes]) link
    (by rw [show t.lane 0 = s.lane 0 by simp only [State.lane, lanes]]; exact id)

namespace LaneState.StreamOk

variable {r p : LaneState} {started : Prop}

/-- Slots changed where an answered one stays COMPLETE or SENDING, and a SENDING one SENDING. -/
theorem map (h : r.StreamOk started) (f : Slot → Slot) (stream : p.stream = r.stream) (slots : p.slots = r.slots.map f)
    (tag : ∀ q, (f q).tag = q.tag)
    (done : ∀ q ∈ r.slots, q.stage = .complete ∨ q.stage = .sending → (f q).stage = .complete ∨ (f q).stage = .sending)
    (sending : ∀ q ∈ r.slots, q.stage = .sending → (f q).stage = .sending) : p.StreamOk started where
  one := by unfold LaneState.answered; rw [stream]; exact h.one
  head x hx := by
    have hx : x ∈ r.answered := by unfold LaneState.answered at hx ⊢; rwa [stream] at hx
    obtain ⟨q, hq, e, st⟩ := h.head x hx
    have hq : r.slots.head? = some q := by simpa using hq
    refine ⟨f q, ?_, (tag q).trans e, done q (List.mem_of_mem_head? hq) st⟩
    rw [slots, List.head?_map, hq]
    simp
  sending st := by
    obtain ⟨some_, sent⟩ := h.sending st
    rw [stream]
    refine ⟨some_, fun x hx => ?_⟩
    obtain ⟨q, hq, e, g⟩ := sent x hx
    exact ⟨f q, by rw [slots]; exact List.mem_map_of_mem hq, (tag q).trans e, sending q hq g⟩

theorem congr (h : r.StreamOk started) (stream : p.stream = r.stream) (slots : p.slots = r.slots) :
    p.StreamOk started :=
  h.map id stream (by rw [slots, List.map_id]) (fun _ => rfl) (fun _ _ => id) (fun _ _ => id)

/-- An item that is no answer joins the tail. -/
theorem append (h : r.StreamOk started) {x : StreamItem} (item : x.answers = none)
    (stream : p.stream = r.stream ++ [x]) (slots : p.slots = r.slots) : p.StreamOk started := by
  have same : p.answered = r.answered := by
    unfold LaneState.answered
    rw [stream, List.filterMap_append]
    simp [item]
  refine ⟨same ▸ h.one, by rw [same, slots]; exact h.head, fun st => ?_⟩
  obtain ⟨some_, sent⟩ := h.sending st
  rw [stream, slots]
  refine ⟨by simp, ?_⟩
  rw [List.head?_append_of_ne_nil _ some_]
  exact sent

/-- The stream keeps its head and no answer joins it. -/
theorem sublist (h : r.StreamOk started) (sub : p.stream.Sublist r.stream) (slots : p.slots = r.slots)
    (head : started → p.stream.head? = r.stream.head?) : p.StreamOk started where
  one := le_trans (sub.filterMap _).length_le h.one
  head x hx := by rw [slots]; exact h.head x ((sub.filterMap _).subset hx)
  sending st := by
    obtain ⟨some_, sent⟩ := h.sending st
    have same := head st
    rw [slots, same]
    refine ⟨fun e => ?_, sent⟩
    rw [e] at same
    exact some_ (List.head?_eq_none_iff.1 same.symm)

/-- The answer of a head that is COMPLETE joins a stream without an answer. -/
theorem answer (h : r.StreamOk started) {q : Slot} (head : r.slots.head? = some q) (complete : q.stage = .complete)
    (none_ : r.answered = []) (stream : p.stream = r.stream ++ [.answer q.tag]) (slots : p.slots = r.slots) :
    p.StreamOk started := by
  have same : p.answered = [q.tag] := by
    unfold LaneState.answered at none_ ⊢
    rw [stream, List.filterMap_append, none_]
    rfl
  refine ⟨by rw [same]; exact le_refl 1, fun x hx => ?_, fun st => ?_⟩
  · rw [same, List.mem_singleton] at hx
    exact ⟨q, by rw [slots, head]; simp, hx.symm, .inl complete⟩
  · obtain ⟨some_, sent⟩ := h.sending st
    rw [stream, slots]
    refine ⟨by simp, ?_⟩
    rw [List.head?_append_of_ne_nil _ some_]
    exact sent

/-- A slot that is not answered leaves the list. -/
theorem drop (h : r.StreamOk started) {tag : Tag} (free : tag ∉ r.answered) (stream : p.stream = r.stream)
    (slots : p.slots = r.slots.filter fun q => q.tag != tag) : p.StreamOk started := by
  have same : p.answered = r.answered := by unfold LaneState.answered; rw [stream]
  refine ⟨same ▸ h.one, fun x hx => ?_, fun st => ?_⟩
  · rw [same] at hx
    obtain ⟨q, hq, e, g⟩ := h.head x hx
    have other : q.tag ≠ tag := fun t => free (t ▸ e ▸ hx)
    refine ⟨q, ?_, e, g⟩
    rw [slots]
    cases list : r.slots with
    | nil => rw [list] at hq; cases hq
    | cons y ys =>
      rw [list] at hq
      have : q = y := List.mem_singleton.1 hq
      subst this
      simp [other]
  · obtain ⟨some_, sent⟩ := h.sending st
    rw [stream]
    refine ⟨some_, fun x hx => ?_⟩
    obtain ⟨q, hq, e, g⟩ := sent x hx
    have answered : x ∈ r.answered := by
      cases list : r.stream with
      | nil => exact absurd list some_
      | cons y ys =>
        rw [list] at hx
        unfold LaneState.answered
        rw [list, List.filterMap_cons]
        have hy : y.answers = some x := by simpa using hx
        rw [hy]
        exact List.mem_cons_self ..
    have other : q.tag ≠ tag := fun same => free (by rw [← same, e]; exact answered)
    exact ⟨q, by rw [slots]; exact List.mem_filter.2 ⟨hq, by simpa using other⟩, e, g⟩

/-- A slot joins the tail of the list. -/
theorem enlist (h : r.StreamOk started) {q : Slot} (stream : p.stream = r.stream) (slots : p.slots = r.slots ++ [q]) :
    p.StreamOk started := by
  have same : p.answered = r.answered := by unfold LaneState.answered; rw [stream]
  refine ⟨same ▸ h.one, fun x hx => ?_, fun st => ?_⟩
  · rw [same] at hx
    obtain ⟨y, hy, g⟩ := h.head x hx
    refine ⟨y, ?_, g⟩
    have hy : r.slots.head? = some y := by simpa using hy
    have some_ : r.slots ≠ [] := fun e => by rw [e] at hy; cases hy
    rw [slots, List.head?_append_of_ne_nil _ some_, hy]
    simp
  · obtain ⟨some_, sent⟩ := h.sending st
    rw [stream, slots]
    refine ⟨some_, fun x hx => ?_⟩
    obtain ⟨y, hy, g⟩ := sent x hx
    exact ⟨y, List.mem_append_left _ hy, g⟩

end LaneState.StreamOk

/-- A stream holds no answer exactly when none is handed. -/
theorem answerHanded_eq_false {r : LaneState} : r.answerHanded = false ↔ r.answered = [] := by
  unfold LaneState.answerHanded LaneState.answered
  rw [List.any_eq_false, List.filterMap_eq_nil_iff]
  refine forall_congr' fun x => forall_congr' fun _ => ?_
  cases x <;> simp [StreamItem.answers]

/-! ### The operations on streams -/

theorem StreamLaw.handItem {s : State} (h : StreamLaw s) (l : Lane) {x : StreamItem} (item : x.answers = none) :
    StreamLaw (handItem l x s) :=
  h.of_lane (fun _ hk => updLane_lane_ne s _ hk) rfl fun ok => by
    rw [show (Machine.handItem l x s).lane l = _ from updLane_lane_self s l _]
    exact ok.append item rfl rfl

theorem StreamLaw.handAnswer {s : State} (h : StreamLaw s) (l : Lane) : StreamLaw (handAnswer l s) := by
  unfold Machine.handAnswer
  split
  · rename_i q head
    split
    · rename_i due
      rw [Bool.and_eq_true, beq_iff_eq, Bool.not_eq_true', answerHanded_eq_false] at due
      refine h.of_lane (fun _ hk => updLane_lane_ne s _ hk) rfl fun ok => ?_
      rw [show (Machine.handItem l _ s).lane l = _ from updLane_lane_self s l _]
      exact ok.answer head due.1 due.2 rfl rfl
    · exact h
  · exact h

/-- An update of one slot that keeps an answered one COMPLETE or SENDING. -/
theorem StreamLaw.updSlot {s : State} (h : StreamLaw s) {l : Lane} {tag : Tag} {f : Slot → Slot}
    (tags : ∀ q, (f q).tag = q.tag)
    (done : ∀ q ∈ (s.lane l).slots, q.tag = tag → q.stage = .complete ∨ q.stage = .sending →
      (f q).stage = .complete ∨ (f q).stage = .sending)
    (sending : ∀ q ∈ (s.lane l).slots, q.tag = tag → q.stage = .sending → (f q).stage = .sending) :
    StreamLaw (s.updSlot l tag f) := by
  refine h.of_lane (fun k hk => updSlot_lane_ne s tag f hk) rfl fun ok => ?_
  rw [updSlot_lane_self]
  refine ok.map (fun q => if q.tag == tag then f q else q) rfl rfl (fun q => ?_) (fun q hq => ?_) fun q hq => ?_
  all_goals by_cases e : q.tag = tag
  · simp [e, tags]
  · simp [e]
  · simpa [e] using done q hq e
  · simp [e]
  · simpa [e] using sending q hq e
  · simp [e]

theorem StreamLaw.grantRule {s : State} (h : StreamLaw s) (l : Lane) : StreamLaw (grantRule l s) := by
  unfold Machine.grantRule
  split
  · refine h.of_lane (fun _ hk => updLane_lane_ne s _ hk) rfl fun ok => ?_
    rw [updLane_lane_self]
    exact ok.congr rfl rfl
  · exact h

theorem StreamLaw.releaseUnits {s : State} (h : StreamLaw s) (l : Lane) (tag : Tag) (gone : HeldUnit → Bool) :
    StreamLaw (releaseUnits l tag gone s) := by
  unfold Machine.releaseUnits
  split
  · exact h
  · have released := h.updSlot (l := l) (tag := tag) (f := fun q => { q with held := q.held.filter fun u => !gone u })
      (fun _ => rfl) (fun _ _ _ => id) (fun _ _ _ => id)
    dsimp only
    split
    · refine StreamLaw.grantRule ?_ l
      exact released.congr rfl rfl
    · exact released.congr rfl rfl

/-- The lane's record after its slot has given back units: the slot's units, and perhaps the credit. -/
theorem releaseUnits_lane (l : Lane) (tag : Tag) (gone : HeldUnit → Bool) (s : State) :
    ∃ c w, (releaseUnits l tag gone s).lane l =
      { (s.lane l).updSlot tag fun q => { q with held := q.held.filter fun u => !gone u } with
        credit := c, creditWaiting := w } := by
  cases found : s.slot? l tag with
  | none =>
    refine ⟨(s.lane l).credit, (s.lane l).creditWaiting, ?_⟩
    unfold Machine.releaseUnits
    rw [found, updSlot_absent found]
  | some q =>
    have released := unitsReleased_lane l tag gone q s l
    rw [if_pos rfl] at released
    rw [releaseUnits_eq gone found]
    split
    · rw [grantRule_lane, released]
      split
      · exact ⟨_, _, rfl⟩
      · exact ⟨_, _, rfl⟩
    · exact ⟨_, _, released⟩

/-- The record of a lane with a slot that has become COMPLETE, before it gives back units. -/
theorem stageComplete_lane (l : Lane) (tag : Tag) (st : RespStatus) (q : Slot) (s : State) :
    (stageComplete l tag st q s).lane l =
      { (s.lane l).updSlot tag fun q => { q with stage := .complete, status := some st } with
        issued := ((s.lane l).leaveIssued q).issued } := by
  unfold stageComplete
  rw [dropWaiters_lane, updLane_lane_self, leaveIssued_eq]
  rfl

/-- A slot that is not SENDING becomes COMPLETE. -/
theorem StreamLaw.stageComplete {s : State} (h : StreamLaw s) {l : Lane} {tag : Tag} (st : RespStatus) (q : Slot)
    (still : ∀ q ∈ (s.lane l).slots, q.tag = tag → q.stage ≠ .sending) : StreamLaw (stageComplete l tag st q s) := by
  refine h.of_lane (l := l) (fun k hk => ?_) rfl fun ok => ?_
  · unfold Machine.stageComplete
    rw [dropWaiters_lane, updLane_lane_ne s _ hk]
  rw [stageComplete_lane]
  refine ok.map (fun q => if q.tag == tag then { q with stage := .complete, status := some st } else q) rfl rfl
    (fun x => ?_) (fun x hx => ?_) fun x hx => ?_
  all_goals by_cases e : x.tag = tag
  · simp [e]
  · simp [e]
  · simp [e]
  · simp [e]
  · exact fun sending => absurd sending (still x hx e)
  · simp [e]

theorem StreamLaw.completeSlot {s : State} (h : StreamLaw s) {l : Lane} {tag : Tag} (st : RespStatus)
    (still : ∀ q ∈ (s.lane l).slots, q.tag = tag → q.stage ≠ .sending) : StreamLaw (completeSlot l tag st s) := by
  cases found : s.slot? l tag with
  | none => unfold Machine.completeSlot; rw [found]; exact h
  | some q =>
    rw [completeSlot_eq st found]
    exact ((h.stageComplete st q still).releaseUnits l tag _).handAnswer l

/-- A slot that is not answered is discarded. -/
theorem StreamLaw.discardSlot {s : State} (h : StreamLaw s) {l : Lane} {tag : Tag}
    (free : tag ∉ (s.lane l).answered) : StreamLaw (discardSlot l tag s) := by
  unfold Machine.discardSlot
  split
  · exact h
  · have dropped : StreamLaw (dropWaiters l tag s) := h.congr rfl rfl
    have released := dropped.releaseUnits l tag fun _ => true
    obtain ⟨c, w, lane⟩ := releaseUnits_lane l tag (fun _ => true) (dropWaiters l tag s)
    refine released.of_lane (fun _ hk => updLane_lane_ne _ _ hk) rfl fun ok => ?_
    rw [updLane_lane_self]
    refine ok.drop (tag := tag) ?_ (by rw [leaveIssued_eq]; rfl) ?_
    · rw [lane]; exact free
    · unfold LaneState.dropSlot
      rw [leaveIssued_slots]

/-- A slot that is not answered is freed. -/
theorem StreamLaw.freeSlot {s : State} (h : StreamLaw s) {l : Lane} {tag : Tag}
    (free : tag ∉ (s.lane l).answered) : StreamLaw (freeSlot l tag s) := by
  unfold Machine.freeSlot
  have released := h.releaseUnits l tag fun _ => true
  obtain ⟨c, w, lane⟩ := releaseUnits_lane l tag (fun _ => true) s
  refine released.of_lane (fun _ hk => updLane_lane_ne _ _ hk) rfl fun ok => ?_
  rw [updLane_lane_self]
  refine ok.drop (tag := tag) ?_ rfl rfl
  rw [lane]
  exact free

end Sys2Proof.Machine
end

section
/-! The accounts, fourth part: the entry indexes and the waiters of the translation unit under its operations. -/

namespace Sys2Proof.Machine

/-- The entry indexes of the cache, the walk slots and the waiting list (R73). -/
def State.heldIndexes (s : State) : List Nat :=
  s.xlat.cache.map (·.index) ++ (allWalks.filterMap s.walk).map (·.index) ++ s.xlat.waiting.map (·.index)

/-- The walk slots that are not FREE, in order. -/
theorem walks_eq (f : WalkNo → Option Walk) : allWalks.filterMap f = (f 0).toList ++ (f 1).toList := by
  have : allWalks = [0, 1] := by decide
  rw [this]
  cases h0 : f 0 <;> cases h1 : f 1 <;> simp [h0, h1]

theorem heldIndexes_eq (s : State) :
    s.heldIndexes = s.xlat.cache.map (·.index)
      ++ ((s.walk 0).toList.map (·.index) ++ (s.walk 1).toList.map (·.index)) ++ s.xlat.waiting.map (·.index) := by
  rw [State.heldIndexes, walks_eq, List.map_append]

theorem allWaiters_eq (s : State) :
    s.allWaiters = (s.walk 0).toList.flatMap (·.waiters) ++ (s.walk 1).toList.flatMap (·.waiters)
      ++ s.xlat.waiting.flatMap (·.waiters) := by
  rw [State.allWaiters, walks_eq, List.flatMap_append]

theorem setWalk_walk (s : State) (w v : WalkNo) (x : Option Walk) :
    (s.setWalk w x).walk v = if v = w then x else s.walk v := by
  split
  · subst v; exact setWalk_walk_self s w x
  · exact setWalk_walk_ne s x ‹_›

theorem walkNo_cases : ∀ w : WalkNo, w = 0 ∨ w = 1 := by decide

/-! ### A walk slot set -/

/-- A walk slot made FREE: its index and its waiters go. -/
theorem setWalk_none_indexes (s : State) (w : WalkNo) : (s.setWalk w none).heldIndexes.Sublist s.heldIndexes := by
  rw [heldIndexes_eq, heldIndexes_eq]
  simp only [setWalk_walk]
  refine List.Sublist.append (List.Sublist.append (List.Sublist.refl _) (List.Sublist.append ?_ ?_)) (List.Sublist.refl _)
  all_goals
    split
    · exact List.nil_sublist _
    · exact List.Sublist.refl _

/-- The waiters of a walk slot and those that stay when it is made FREE. -/
theorem setWalk_none_waiters {s : State} {w : WalkNo} {x : Walk} (h : s.walk w = some x) :
    s.allWaiters.Perm (x.waiters ++ (s.setWalk w none).allWaiters) := by
  rw [allWaiters_eq, allWaiters_eq]
  simp only [setWalk_walk]
  rcases walkNo_cases w with rfl | rfl
  · simp [h, State.setWalk, State.withXlat]
  · simp only [h, Option.toList_some, State.setWalk, State.withXlat]
    simp only [List.flatMap_cons, List.flatMap_nil, List.append_nil, if_true, zero_ne_one, if_false, Option.toList_none,
      ← List.append_assoc]
    exact (List.perm_append_comm).append_right _

/-- A walk slot with the same index and the same waiters. -/
theorem setWalk_same {s : State} {w : WalkNo} {x y : Walk} (h : s.walk w = some x) (index : y.index = x.index)
    (waiters : y.waiters = x.waiters) :
    (s.setWalk w (some y)).heldIndexes = s.heldIndexes ∧ (s.setWalk w (some y)).allWaiters = s.allWaiters := by
  rw [heldIndexes_eq, heldIndexes_eq, allWaiters_eq, allWaiters_eq]
  simp only [setWalk_walk]
  rcases walkNo_cases w with rfl | rfl <;> simp [h, index, waiters, State.setWalk, State.withXlat]

/-- The cache and the walk slots when a walk's index joins the cache (R80). -/
theorem install_indexes {s : State} {w : WalkNo} {x : Walk} {e : CacheEntry} (h : s.walk w = some x)
    (index : e.index = x.index) (law : s.heldIndexes.Nodup) :
    ((s.setWalk w none).withXlat fun t => { t with cache := install e t.cache }).heldIndexes.Nodup := by
  have sub : (install e s.xlat.cache).Sublist (s.xlat.cache ++ [e]) := by
    unfold install
    refine List.Sublist.append ?_ (List.Sublist.refl _)
    split
    · exact List.Sublist.refl _
    · exact List.tail_sublist _
  have perm : (s.xlat.cache.map (·.index) ++ [e.index] ++ ((s.setWalk w none).walk 0).toList.map (·.index)
      ++ ((s.setWalk w none).walk 1).toList.map (·.index) ++ s.xlat.waiting.map (·.index)).Perm s.heldIndexes := by
    rw [heldIndexes_eq]
    simp only [setWalk_walk]
    rcases walkNo_cases w with rfl | rfl
    · simp [h, index]
    · simp only [h, index, if_true, zero_ne_one, if_false, Option.toList_some, Option.toList_none, List.map_nil,
        List.append_nil, List.map_cons]
      refine List.Perm.append_right _ ?_
      rw [List.append_assoc]
      exact (List.perm_append_comm).append_left _
  refine (perm.nodup_iff.2 law).sublist ?_
  rw [heldIndexes_eq]
  simp only [withXlat_xlat, List.append_assoc]
  refine List.Sublist.trans (List.Sublist.append (sub.map _) (List.Sublist.refl _)) ?_
  simp only [List.map_append, List.map_cons, List.map_nil, List.append_assoc]
  exact List.Sublist.refl _

/-! ### Waiters withdrawn (R75) -/

theorem dropWaiters_walk (l : Lane) (tag : Tag) (s : State) (w : WalkNo) :
    (dropWaiters l tag s).walk w = (s.walk w).map fun x => { x with waiters := withoutSlot l tag x.waiters } := by
  simp [dropWaiters, State.walk, State.withXlat]

theorem flatMap_filter_nonempty (ws : List WaitingIndex) :
    (ws.filter fun x => !x.waiters.isEmpty).flatMap (·.waiters) = ws.flatMap (·.waiters) := by
  induction ws with
  | nil => rfl
  | cons x xs ih => cases h : x.waiters <;> simp [h, ih]

/-- The waiters that stay when a slot's are withdrawn. -/
theorem dropWaiters_allWaiters (l : Lane) (tag : Tag) (s : State) :
    (dropWaiters l tag s).allWaiters = withoutSlot l tag s.allWaiters := by
  rw [allWaiters_eq, allWaiters_eq]
  simp only [dropWaiters_walk]
  have walks : ∀ o : Option Walk,
      (o.map fun x : Walk => { x with waiters := withoutSlot l tag x.waiters }).toList.flatMap (·.waiters)
        = withoutSlot l tag (o.toList.flatMap (·.waiters)) := fun o => by cases o <;> simp [withoutSlot]
  have waiting : (dropWaiters l tag s).xlat.waiting.flatMap (·.waiters)
      = withoutSlot l tag (s.xlat.waiting.flatMap (·.waiters)) := by
    show ((s.xlat.waiting.map _).filter _).flatMap _ = _
    rw [flatMap_filter_nonempty]
    simp [withoutSlot, List.filter_flatMap, List.flatMap_map]
  rw [walks, walks, waiting]
  simp [withoutSlot]

theorem dropWaiters_indexes (l : Lane) (tag : Tag) (s : State) :
    (dropWaiters l tag s).heldIndexes.Sublist s.heldIndexes := by
  rw [heldIndexes_eq, heldIndexes_eq]
  simp only [dropWaiters_walk]
  have walks : ∀ o : Option Walk,
      (o.map fun x : Walk => { x with waiters := withoutSlot l tag x.waiters }).toList.map (·.index)
        = o.toList.map (·.index) := fun o => by cases o <;> rfl
  rw [walks, walks]
  refine List.Sublist.append (List.Sublist.refl _) ?_
  show (((s.xlat.waiting.map _).filter _).map _).Sublist _
  refine (List.filter_sublist.map _).trans ?_
  rw [List.map_map]
  exact List.Sublist.refl _

theorem mem_dropWaiters {l : Lane} {tag : Tag} {s : State} {p : PieceRef} :
    p ∈ (dropWaiters l tag s).allWaiters ↔ p ∈ s.allWaiters ∧ ¬(p.lane = l ∧ p.tag = tag) := by
  rw [dropWaiters_allWaiters, withoutSlot, List.mem_filter]
  simp [-not_and, not_and_or]

/-! ### Taking an index (R76) -/

theorem takeIndex_perm (w : WalkNo) (s : State) :
    (takeIndex w s).heldIndexes.Perm s.heldIndexes ∧ (takeIndex w s).allWaiters.Perm s.allWaiters
      ∧ (takeIndex w s).xlat.waiting.Sublist s.xlat.waiting := by
  unfold takeIndex
  split
  · rename_i x rest free waiting
    rw [heldIndexes_eq, heldIndexes_eq, allWaiters_eq, allWaiters_eq]
    have walk : ∀ v, (s.withXlat fun t =>
        { t with
          walks := t.walks.set w (some ⟨false, x.index, x.waiters, false, t.nextAge⟩)
          waiting := rest
          nextAge := t.nextAge + 1 }).walk v =
          if v = w then some ⟨false, x.index, x.waiters, false, s.xlat.nextAge⟩ else s.walk v :=
      fun v => setWalk_walk s w v _
    simp only [walk, withXlat_xlat, waiting]
    rcases walkNo_cases w with rfl | rfl
    · simp only [free, if_true, one_ne_zero, if_false, Option.toList_some, Option.toList_none, List.map_nil,
        List.map_cons, List.nil_append, List.flatMap_cons, List.flatMap_nil, List.append_nil]
      refine ⟨?_, ?_, List.sublist_cons_self _ _⟩
      · simp only [List.append_assoc]
        refine List.Perm.append_left _ ?_
        simp only [← List.append_assoc]
        exact List.perm_middle.symm.trans (by simp)
      · rw [← List.append_assoc]
        exact (List.perm_append_comm).append_right _
    · simp only [free, if_true, zero_ne_one, if_false, Option.toList_some, Option.toList_none, List.map_nil,
        List.map_cons, List.flatMap_cons, List.flatMap_nil, List.append_nil]
      refine ⟨?_, ?_, List.sublist_cons_self _ _⟩
      · simp
      · simp
  · exact ⟨List.Perm.refl _, List.Perm.refl _, List.Sublist.refl _⟩

/-! ### A piece joins the waiters of an index (R73) -/

theorem joinWaiters_waiting_map (index : Nat) (p : PieceRef) : ∀ ws : List WaitingIndex,
    (ws.map (·.index)).Nodup → (ws.any fun x => x.index == index) = true →
      ((ws.map fun x => if x.index == index then { x with waiters := x.waiters ++ [p] } else x).flatMap (·.waiters)).Perm
        (p :: ws.flatMap (·.waiters))
  | [], _, h => by simp at h
  | x :: xs, once, h => by
    rw [List.map_cons, List.nodup_cons] at once
    rw [List.map_cons, List.flatMap_cons, List.flatMap_cons]
    by_cases e : x.index = index
    · have rest : (xs.map fun x => if x.index == index then { x with waiters := x.waiters ++ [p] } else x) = xs := by
        conv_rhs => rw [← List.map_id xs]
        refine List.map_congr_left fun y hy => ?_
        have : y.index ≠ index := fun g => once.1 (by rw [e, ← g]; exact List.mem_map_of_mem hy)
        simp [this]
      rw [rest, if_pos (by simpa using e), List.append_assoc]
      exact List.perm_middle
    · have tail : (xs.any fun x => x.index == index) = true := by
        rw [List.any_cons] at h
        simpa [e] using h
      rw [if_neg (by simpa using e)]
      exact ((joinWaiters_waiting_map index p xs once.2 tail).append_left _).trans List.perm_middle

/-- What joining an index's waiters does to the indexes and the waiters, where the index is in no cache entry. -/
theorem joinWaiters_lists {s : State} (index : Nat) (p : PieceRef) (law : s.heldIndexes.Nodup)
    (miss : index ∉ s.xlat.cache.map (·.index)) :
    (joinWaiters index p s).heldIndexes.Nodup ∧ (joinWaiters index p s).allWaiters.Perm (p :: s.allWaiters)
      ∧ ((∀ e ∈ s.xlat.waiting, e.waiters ≠ []) → ∀ e ∈ (joinWaiters index p s).xlat.waiting, e.waiters ≠ []) := by
  unfold joinWaiters
  split
  · rename_i w found
    have holds := List.find?_some found
    cases walk : s.walk w with
    | none => rw [walk] at holds; cases holds
    | some x =>
      have indexes : (s.setWalk w (some { x with waiters := x.waiters ++ [p] })).heldIndexes = s.heldIndexes := by
        rw [heldIndexes_eq, heldIndexes_eq]
        simp only [setWalk_walk]
        rcases walkNo_cases w with rfl | rfl <;> simp [walk, State.setWalk, State.withXlat]
      refine ⟨by rw [Option.map_some, indexes]; exact law, ?_, id⟩
      rw [Option.map_some, allWaiters_eq, allWaiters_eq]
      simp only [setWalk_walk]
      rcases walkNo_cases w with rfl | rfl
      · simp only [walk, if_true, one_ne_zero, if_false, Option.toList_some, List.flatMap_cons, List.flatMap_nil,
          List.append_nil, List.append_assoc, List.cons_append, List.nil_append, State.setWalk, State.withXlat]
        exact List.perm_middle
      · simp only [walk, if_true, zero_ne_one, if_false, Option.toList_some, List.flatMap_cons, List.flatMap_nil,
          List.append_nil, List.append_assoc, List.cons_append, List.nil_append, State.setWalk, State.withXlat]
        rw [← List.append_assoc, ← List.append_assoc]
        exact List.perm_middle
  · rename_i absent
    have free : index ∉ (allWalks.filterMap s.walk).map (·.index) := by
      intro m
      obtain ⟨x, hx, e⟩ := List.mem_map.1 m
      obtain ⟨w, hw, walk⟩ := List.mem_filterMap.1 hx
      refine List.find?_eq_none.1 absent w hw ?_
      rw [walk]
      simpa using e
    by_cases listed : (s.xlat.waiting.any fun x => x.index == index) = true
    · have waiting : (s.withXlat fun t =>
          if (t.waiting.any fun x => x.index == index) = true then
            { t with
              waiting := t.waiting.map fun x => if x.index == index then { x with waiters := x.waiters ++ [p] } else x }
          else { t with waiting := t.waiting ++ [⟨index, [p]⟩] }) = s.withXlat fun t =>
            { t with
              waiting := t.waiting.map fun x =>
                if x.index == index then { x with waiters := x.waiters ++ [p] } else x } := by
        simp only [State.withXlat, listed, if_true]
      rw [waiting]
      refine ⟨?_, ?_, fun wait e he => ?_⟩
      · have same : ∀ ws : List WaitingIndex,
            (ws.map fun x => if x.index == index then { x with waiters := x.waiters ++ [p] } else x).map (·.index)
              = ws.map (·.index) := fun ws => by
          rw [List.map_map]
          refine List.map_congr_left fun x _ => ?_
          simp only [Function.comp]
          split <;> rfl
        unfold State.heldIndexes at law ⊢
        simp only [withXlat_xlat, same]
        exact law
      · unfold State.allWaiters
        simp only [withXlat_xlat]
        refine List.Perm.trans (List.Perm.append_left _ (joinWaiters_waiting_map index p _ ?_ listed)) List.perm_middle
        exact (List.nodup_append.1 law).2.1
      · obtain ⟨x, hx, rfl⟩ := List.mem_map.1 he
        split
        · simp
        · exact wait x hx
    · have waiting : (s.withXlat fun t =>
          if (t.waiting.any fun x => x.index == index) = true then
            { t with
              waiting := t.waiting.map fun x => if x.index == index then { x with waiters := x.waiters ++ [p] } else x }
          else { t with waiting := t.waiting ++ [⟨index, [p]⟩] }) = s.withXlat fun t =>
            { t with waiting := t.waiting ++ [⟨index, [p]⟩] } := by
        simp only [State.withXlat, listed, Bool.false_eq_true, if_false]
      rw [waiting]
      refine ⟨?_, ?_, fun wait e he => ?_⟩
      · unfold State.heldIndexes at law ⊢
        simp only [withXlat_xlat, List.map_append, List.map_cons, List.map_nil]
        rw [← List.append_assoc, ← List.concat_eq_append]
        refine law.concat fun m => ?_
        rcases List.mem_append.1 m with m | m
        · rcases List.mem_append.1 m with m | m
          · exact miss m
          · exact free m
        · refine listed (List.any_eq_true.2 ?_)
          obtain ⟨x, hx, e⟩ := List.mem_map.1 m
          exact ⟨x, hx, by simpa using e⟩
      · unfold State.allWaiters
        simp only [withXlat_xlat, List.flatMap_append, List.flatMap_cons, List.flatMap_nil, List.append_nil]
        rw [← List.append_assoc]
        exact List.perm_append_singleton _ _
      · rcases List.mem_append.1 he with he | he
        · exact wait e he
        · rw [List.mem_singleton.1 he]
          simp

/-! ### Invalidation and the final change -/

theorem mapVec_walk {s t : State} (f : Option Walk → Option Walk) (h : t.xlat.walks = mapVec f s.xlat.walks) (w : WalkNo) :
    t.walk w = f (s.walk w) := by
  unfold State.walk
  rw [h]
  simp

theorem invalidateScope_lists (sc : Scope) (s : State) :
    (invalidateScope sc s).heldIndexes.Sublist s.heldIndexes ∧ (invalidateScope sc s).allWaiters = s.allWaiters := by
  have walk : ∀ w, (invalidateScope sc s).walk w = (s.walk w).map fun x => { x with stale := x.stale || x.marked sc } :=
    mapVec_walk _ rfl
  have indexes : ∀ o : Option Walk,
      (o.map fun x : Walk => { x with stale := x.stale || x.marked sc }).toList.map (·.index) = o.toList.map (·.index) :=
    fun o => by cases o <;> rfl
  have waiters : ∀ o : Option Walk,
      (o.map fun x : Walk => { x with stale := x.stale || x.marked sc }).toList.flatMap (·.waiters)
        = o.toList.flatMap (·.waiters) := fun o => by cases o <;> rfl
  rw [heldIndexes_eq, heldIndexes_eq, allWaiters_eq, allWaiters_eq]
  simp only [walk, indexes, waiters]
  exact ⟨((List.filter_sublist.map _).append (List.Sublist.refl _)).append (List.Sublist.refl _), rfl⟩

/-- The translation unit after the final change of RESTART (R84). -/
theorem readyFreed_lists {s t : State} (cache : t.xlat.cache = []) (walks : t.xlat.walks = mapVec readyFreed s.xlat.walks)
    (waiting : t.xlat.waiting = s.xlat.waiting) :
    t.heldIndexes.Sublist s.heldIndexes ∧ t.allWaiters.Sublist s.allWaiters := by
  have sub : ∀ o : Option Walk, (readyFreed o).toList.Sublist o.toList := fun o => by
    cases o with
    | none => exact List.Sublist.refl _
    | some x => cases h : x.reading <;> simp [readyFreed, h]
  rw [heldIndexes_eq, heldIndexes_eq, allWaiters_eq, allWaiters_eq]
  simp only [mapVec_walk readyFreed walks, cache, waiting, List.map_nil, List.nil_append]
  refine ⟨?_, ?_⟩
  · rw [List.append_assoc (s.xlat.cache.map _)]
    exact ((((sub _).map _).append ((sub _).map _)).append (List.Sublist.refl _)).trans (List.sublist_append_right _ _)
  · exact (((sub _).flatMap _).append ((sub _).flatMap _)).append (List.Sublist.refl _)

end Sys2Proof.Machine
end

section
/-! No entry index stands twice: what every operation on the translation unit keeps, and with it the laws of the lists. -/

namespace Sys2Proof.Machine

/-- The law of the indexes holds again. -/
def IndexKept (s t : State) : Prop := IndexLaw s → IndexLaw t

/-- The part after LINE_RESET, whatever the queue, the straps and the counter of free values (R154). -/
theorem lineReset_fields {straps : BitVec 4} {s t : State} (run : exec (.lineReset straps) s = .next t) :
    t = { State.reset with
      mgmt := { State.reset.mgmt with strapped := straps.toFin }
      pending := s.pending
      freeCount := s.freeCount } := (Host.Outcome.next.inj run).symm

namespace IndexKept

theorem refl (s : State) : IndexKept s s := id

theorem trans {s t u : State} (a : IndexKept s t) (b : IndexKept t u) : IndexKept s u := fun h => b (a h)

theorem of_same {s t : State} (xlat : t.xlat = s.xlat) : IndexKept s t := fun h => h.congr xlat

theorem of_sublist {s t : State} (sub : t.heldIndexes.Sublist s.heldIndexes) : IndexKept s t := fun h =>
  List.Nodup.sublist sub h

theorem of_perm {s t : State} (perm : t.heldIndexes.Perm s.heldIndexes) : IndexKept s t := fun h => perm.nodup_iff.2 h

theorem forEach {α : Type} {f : α → State → State} (step : ∀ x s, IndexKept s (f x s)) (xs : List α) (s : State) :
    IndexKept s (forEach xs f s) := forEach_rel IndexKept refl (fun _ _ _ => trans) f step xs s

/-! ### Slots -/

theorem grantRule (l : Lane) (s : State) : IndexKept s (grantRule l s) := of_same (grantRule_fields l s).2.2.2.2.1

theorem releaseUnits_xlat (l : Lane) (tag : Tag) (gone : HeldUnit → Bool) (s : State) :
    (releaseUnits l tag gone s).xlat = s.xlat := by
  cases found : s.slot? l tag with
  | none => unfold Machine.releaseUnits; rw [found]
  | some q =>
    rw [releaseUnits_eq gone found]
    split
    · exact (grantRule_fields l _).2.2.2.2.1
    · rfl

theorem completeSlot (l : Lane) (tag : Tag) (st : RespStatus) (s : State) : IndexKept s (completeSlot l tag st s) := by
  cases found : s.slot? l tag with
  | none => unfold Machine.completeSlot; rw [found]; exact refl s
  | some q =>
    obtain ⟨_, _, _, _, _, xlat, _⟩ := completeSlot_rest st found
    exact (of_sublist (dropWaiters_indexes l tag s)).trans (of_same xlat)

theorem discardSlot (l : Lane) (tag : Tag) (s : State) : IndexKept s (discardSlot l tag s) := by
  unfold Machine.discardSlot
  split
  · exact refl s
  · exact (of_sublist (dropWaiters_indexes l tag s)).trans (of_same (releaseUnits_xlat l tag _ _))

theorem freeSlot (l : Lane) (tag : Tag) (s : State) : IndexKept s (freeSlot l tag s) :=
  of_same (releaseUnits_xlat l tag _ s)

theorem handAnswer (l : Lane) (s : State) : IndexKept s (handAnswer l s) := of_same (handAnswer_xlat l s)

/-! ### Drains and RESTART -/

theorem endOp (s : State) : IndexKept s (endOp s) := by
  rw [endOp_fields]
  exact of_same rfl

theorem finalChange (s : State) : IndexKept s (finalChange s) := by
  unfold Machine.finalChange
  refine trans (of_sublist ?_) (endOp _)
  exact And.left (readyFreed_lists rfl rfl rfl)

theorem restartMemory (s : State) : IndexKept s (restartMemory s) := by
  unfold Machine.restartMemory
  split
  · exact finalChange s
  · exact refl s

theorem restartProgress (s : State) : IndexKept s (restartProgress s) := by
  unfold Machine.restartProgress
  split
  · exact (of_same rfl : IndexKept s (s.withMgmt _)).trans (restartMemory _)
  · exact restartMemory s

theorem enterDetached (l : Lane) (s : State) : IndexKept s (enterDetached l s) := by
  unfold Machine.enterDetached
  dsimp only
  split
  · exact ((of_same rfl : IndexKept s (s.updLane l _)).trans (endOp _)).trans (restartProgress _)
  · exact (of_same rfl : IndexKept s (s.updLane l _)).trans (restartProgress _)

theorem closeDrain (l : Lane) (s : State) : IndexKept s (closeDrain l s) := by
  unfold Machine.closeDrain
  split
  · exact enterDetached l s
  · exact refl s

theorem afterLeaving (l : Lane) (s : State) : IndexKept s (afterLeaving l s) := (handAnswer l s).trans (closeDrain l _)

theorem openAnswered (l : Lane) (tag : Tag) (s : State) : IndexKept s (openAnswered l tag s) :=
  ((of_same rfl : IndexKept s (s.updLane l _)).trans (forEach (fun _ s => completeSlot l _ _ s) _ _)).trans
    (closeDrain l _)

theorem silence (l : Lane) (s : State) : IndexKept s (silence l s) :=
  ((of_same rfl : IndexKept s (s.updLane l _)).trans (forEach (discardSlot l) _ _)).trans (closeDrain l _)

theorem silenceNew (l : Lane) (s : State) : IndexKept s (silenceNew l s) := by
  unfold Machine.silenceNew
  split
  · exact refl s
  · exact silence l s

theorem silenceJoined (l : Lane) (s : State) : IndexKept s (silenceJoined l s) := by
  unfold Machine.silenceJoined
  split
  · exact refl s
  · exact silence l s

/-! ### Translation -/

theorem takeIndexes (s : State) : IndexKept s (takeIndexes s) :=
  forEach (fun w s => of_perm (takeIndex_perm w s).1) allWalks s

/-- An index that the lookup misses is in no cache entry. -/
theorem lookUp_miss {s : State} {index : Nat} (h : s.lookUp index = .miss) : index ∉ s.xlat.cache.map (·.index) := by
  unfold State.lookUp at h
  split at h
  · cases h
  · split at h
    · cases h
    · rename_i none_
      intro m
      obtain ⟨e, he, same⟩ := List.mem_map.1 m
      exact List.find?_eq_none.1 none_ e he (by simpa using same)

theorem lookPiece (l : Lane) (q : Slot) (upper : Bool) (index : Nat) (k : Lookups) :
    IndexKept k.state (lookPiece l q upper index k).state := by
  unfold Machine.lookPiece
  split
  · exact of_same rfl
  · split
    · exact of_same rfl
    · exact of_same rfl
  · rename_i miss
    exact fun h => (joinWaiters_lists index _ h (lookUp_miss miss)).1

theorem lookPieces (l : Lane) (q : Slot) (s : State) : IndexKept s (lookPieces l q s).state := by
  unfold Machine.lookPieces
  suffices h : ∀ (xs : List (Piece × Bool)) (k : Lookups), IndexKept s k.state →
      IndexKept s (xs.foldl (fun k x => Machine.lookPiece l q x.2 (x.1.entry.getD 0) k) k).state from h _ _ (refl s)
  intro xs
  induction xs with
  | nil => exact fun k h => h
  | cons x xs ih => exact fun k h => ih _ (h.trans (lookPiece l q _ _ k))

theorem suspendLane (l : Lane) (s : State) : IndexKept s (suspendLane l s) := by
  unfold Machine.suspendLane
  split
  · exact of_same rfl
  · exact refl s

theorem report (rep : Report) (s : State) : IndexKept s (report rep s) := by
  obtain ⟨_, _, _, _, _, _, _, xlat, _⟩ := report_fields rep s
  exact of_same xlat

theorem reportAll (reps : List Report) (s : State) : IndexKept s (reportAll reps s) := forEach report reps s

theorem translateSlot (l : Lane) (q : Slot) (s : State) : IndexKept s (translateSlot l q s) := by
  unfold Machine.translateSlot
  dsimp only
  refine trans (trans (lookPieces l q s) ?_) (reportAll _ _)
  refine trans ?_ (takeIndexes _)
  split
  · exact completeSlot _ _ _ _
  · exact of_same rfl

theorem failWaiter (st : RespStatus) (p : PieceRef) (s : State) : IndexKept s (failWaiter st p s) :=
  (of_same rfl : IndexKept s (failPiece p s)).trans (completeSlot _ _ _ _)

theorem checkWaiter (e : CacheEntry) (p : PieceRef) (k : State × List Report) :
    IndexKept k.1 (checkWaiter e p k).1 := by
  unfold Machine.checkWaiter
  split
  · exact refl _
  · split
    · exact of_same rfl
    · exact failWaiter _ _ _

theorem checkWaiters (e : CacheEntry) (ws : List PieceRef) (s : State) : IndexKept s (checkWaiters e ws s).1 := by
  unfold Machine.checkWaiters
  suffices h : ∀ (xs : List PieceRef) (k : State × List Report), IndexKept s k.1 →
      IndexKept s (xs.foldl (fun k p => Machine.checkWaiter e p k) k).1 from h _ _ (refl s)
  intro xs
  induction xs with
  | nil => exact fun k h => h
  | cons x xs ih => exact fun k h => ih _ (h.trans (checkWaiter e x k))

theorem failWalk (w : WalkNo) (ws : List PieceRef) (s : State) : IndexKept s (failWalk w ws s) :=
  ((of_sublist (setWalk_none_indexes s w)).trans (forEach (failWaiter _) _ _)).trans (takeIndexes _)

theorem entryOf_index {index : Nat} {value : BitVec 64} {e : CacheEntry} (h : entryOf index value = some e) :
    e.index = index := by
  unfold entryOf at h
  split at h
  · rw [← Option.some.inj h]
  · cases h

theorem walkOutcome (w : WalkNo) (o : Outcome) (value : Beat) (address : MemAddr) (s : State) :
    IndexKept s (walkOutcome w o value address s).1 := by
  unfold Machine.walkOutcome
  split
  · exact refl s
  · rename_i x walk
    split
    · intro h
      have := (setWalk_same (y := { x with reading := false, stale := false }) walk rfl rfl).1
      show (State.heldIndexes _).Nodup
      rw [this]
      exact h
    · split
      · exact failWalk _ _ s
      · split
        · exact failWalk _ _ s
        · rename_i e entry
          exact (show IndexKept s _ from install_indexes walk (entryOf_index entry)).trans
            ((checkWaiters _ _ _).trans (takeIndexes _))

/-! ### The memory port -/

theorem settleSlot (l : Lane) (tag : Tag) (s : State) : IndexKept s (settleSlot l tag s) := by
  unfold Machine.settleSlot
  split
  · exact refl s
  · split
    · split
      · exact (discardSlot l tag s).trans (afterLeaving l _)
      · exact completeSlot l tag _ s
    · exact refl s

theorem fillPiece (l : Lane) (tag : Tag) (upper : Bool) (masks : List (BitVec 8)) (beats : List Beat) (s : State) :
    IndexKept s (fillPiece l tag upper masks beats s) := by
  unfold Machine.fillPiece
  split
  · exact refl s
  · split
    · exact refl s
    · exact of_same rfl

theorem pieceOutcome (ref : PieceRef) (o : Outcome) (txn : Transaction) (beats : List Beat) (s : State) :
    IndexKept s (pieceOutcome ref o txn beats s) := by
  unfold Machine.pieceOutcome
  refine trans ?_ (settleSlot _ _ _)
  have first : IndexKept s (s.updPiece ref fun p => { p with status := o.pieceStatus, memId := none }) := of_same rfl
  split
  · split
    · exact first.trans (fillPiece _ _ _ _ _ _)
    · exact first
  · exact first

theorem handOutcome (owner : Owner) (o : Outcome) (txn : Transaction) (beats : List Beat) (s : State) :
    IndexKept s (handOutcome owner o txn beats s).1 := by
  unfold Machine.handOutcome
  split
  · exact pieceOutcome _ _ _ _ s
  · exact (of_same rfl : IndexKept s (s.useFree 1)).trans (walkOutcome _ _ _ _ _)

theorem endTransaction (i : MemId) (x : IdState) (owner : Owner) (o : Outcome) (txn : Transaction) (beats : List Beat)
    (s : State) : IndexKept s (endTransaction i x owner o txn beats s) :=
  (((of_same rfl : IndexKept s (s.setId i x)).trans (handOutcome _ _ _ _ _)).trans (reportAll _ _)).trans
    (restartProgress _)

theorem memoryResponse (i : MemId) (st : MemStatus) (beats : List Beat) (s : State) :
    IndexKept s (memoryResponse i st beats s) := by
  unfold Machine.memoryResponse
  split
  · exact endTransaction _ _ _ _ _ _ s
  · exact ((of_same rfl : IndexKept s (s.setId i .free)).trans (report _ _)).trans (restartProgress _)
  · exact report _ s

theorem responseTimeout (i : MemId) (s : State) : IndexKept s (responseTimeout i s) := by
  unfold Machine.responseTimeout
  split
  · exact endTransaction _ _ _ _ _ _ s
  all_goals exact refl s

theorem chargeClass_xlat (l : Lane) (dir : Dir) (n : Nat) (s : State) : (chargeClass l dir n s).1.xlat = s.xlat := by
  unfold chargeClass
  dsimp only
  repeat' split
  all_goals rfl

theorem issuePiece (l : Lane) (q : Slot) (upper : Bool) (p : Piece) (i : MemId) (s : State) :
    IndexKept s (issuePiece l q upper p i s) := by
  unfold Machine.issuePiece
  exact of_same rfl

theorem issuePieces (l : Lane) (q : Slot) (ids : List MemId) (s : State) : IndexKept s (issuePieces l q ids s) := by
  unfold Machine.issuePieces
  refine forEach (α := (Piece × Bool) × MemId) ?_ _ _
  exact fun x s => issuePiece l q _ _ _ s

theorem grantSlot (l : Lane) (q : Slot) (p : MemoryPort) (ids : List MemId) (s : State) :
    IndexKept s (grantSlot l q p ids s) := by
  unfold Machine.grantSlot
  dsimp only
  refine trans ?_ (reportAll _ _)
  refine trans ?_ (of_same (chargeClass_xlat _ _ _ _))
  refine trans ?_ (issuePieces _ _ _ _)
  split <;> exact of_same rfl

theorem grantWalk {w : WalkNo} {x : Walk} {s : State} (walk : s.walk w = some x) (ids : List MemId) :
    IndexKept s (grantWalk w x ids s) := by
  unfold Machine.grantWalk
  split
  · split
    · intro h
      have same := (setWalk_same (y := { x with reading := true }) walk rfl rfl).1
      show (State.heldIndexes (s.setWalk w _)).Nodup
      rw [same]
      exact h
    · exact refl s
  · exact ((failWalk w _ s).trans (reportAll _ _)).trans (restartProgress _)

theorem leaveUngranted (s : State) : IndexKept s (leaveUngranted s) := by
  unfold Machine.leaveUngranted
  split <;> exact of_same rfl

end IndexKept

/-- The walk slot that the arbiter chooses is READY (R129). -/
theorem readyWalk_ready {s : State} {w : WalkNo} {x : Walk} (h : s.readyWalk = some (w, x)) :
    s.walk w = some x ∧ x.reading = false := by
  revert w x h
  unfold State.readyWalk
  refine List.foldlRecOn (motive := fun best : Option (WalkNo × Walk) => ∀ {w : WalkNo} {x : Walk},
    best = some (w, x) → s.walk w = some x ∧ x.reading = false) _ _ (fun h => by cases h) ?_
  intro best ready w _ v x h
  split at h
  · rename_i y walk
    split at h
    · exact ready h
    · rename_i reading
      have this_ : s.walk w = some y ∧ y.reading = false := ⟨walk, by simpa using reading⟩
      split at h
      · split at h
        · cases h; exact this_
        · cases h; exact ready rfl
      · cases h; exact this_
  · exact ready h

namespace IndexKept

theorem grant (want : List MemId) (s : State) : IndexKept s (grant want s) := by
  unfold Machine.grant
  split
  · rename_i w x ready
    split
    · exact grantWalk (readyWalk_ready ready).1 _
    · exact refl s
  · repeat' split
    · exact grantSlot _ _ _ _ s
    · exact leaveUngranted s
    all_goals exact refl s

/-! ### Acceptance, the link and the streams -/

theorem enlist_xlat (rq : Request) (d : Decoded) (s : State) : (enlist rq d s).xlat = s.xlat := by
  unfold enlist
  dsimp only
  split <;> rfl

theorem accept (rq : Request) (s : State) : IndexKept s (accept rq s) := by
  unfold Machine.accept
  dsimp only
  have first : IndexKept s (enlist rq (s.decode rq) s) := of_same (enlist_xlat _ _ s)
  split
  · exact (first.trans (completeSlot _ _ _ _)).trans (report _ _)
  · exact first.trans (completeSlot _ _ _ _)
  · exact first
  · exact first.trans (translateSlot _ _ _)

theorem freeCutOff (s : State) : IndexKept s (freeCutOff s) := by
  unfold Machine.freeCutOff
  repeat' split
  · exact freeSlot _ _ s
  all_goals exact refl s

theorem settleOp (s : State) : IndexKept s (settleOp s) := by
  unfold Machine.settleOp
  repeat' split
  all_goals exact of_same rfl

theorem linkLoss (s : State) : IndexKept s (linkLoss s) :=
  ((((freeCutOff s).trans (of_same rfl : IndexKept _ (emptySources _))).trans (report _ _)).trans
    (forEach silenceJoined allLanes _)).trans (settleOp _)

theorem startItem (l : Lane) (x : StreamItem) (s : State) : IndexKept s (startItem l x s) := by
  unfold Machine.startItem
  repeat' split
  all_goals exact of_same rfl

theorem startStream (l : Lane) (s : State) : IndexKept s (startStream l s) := by
  unfold Machine.startStream
  split
  · exact (of_same rfl : IndexKept s (s.withLink fun k => { k with lastStream := l })).trans (startItem l _ _)
  · exact refl s

theorem startBelow (s : State) : IndexKept s (startBelow s) := by
  unfold Machine.startBelow
  split
  · exact of_same rfl
  · split
    · exact of_same rfl
    · split
      · exact startStream _ s
      · exact refl s

theorem startNext (s : State) : IndexKept s (startNext s) := by
  unfold Machine.startNext startNotice
  split
  · exact of_same rfl
  · split
    · split
      · exact of_same rfl
      · exact startBelow s
    · exact (of_same rfl : IndexKept s (s.withFaults _)).trans (startBelow _)

theorem endItem (l : Lane) (x : StreamItem) (s : State) : IndexKept s (endItem l x s) := by
  unfold Machine.endItem
  split
  · exact (freeSlot l _ s).trans (afterLeaving l _)
  · split <;> exact of_same rfl
  all_goals exact refl s

theorem endSource (source : TxSource) (s : State) : IndexKept s (endSource source s) := by
  unfold Machine.endSource
  split
  · exact (of_same rfl : IndexKept s (s.withMgmt _)).trans (settleOp _)
  · exact of_same rfl
  · exact of_same rfl
  · exact refl s
  · unfold endStream
    split
    · exact refl s
    · exact (of_same rfl : IndexKept s (s.updLane _ _)).trans (endItem _ _ _)

theorem transmissionEnd (s : State) : IndexKept s (transmissionEnd s) := by
  unfold Machine.transmissionEnd
  split
  · exact (of_same rfl : IndexKept s (s.withLink _)).trans (endSource _ _)
  · exact refl s

end IndexKept

theorem stepRel_indexKept : StepRel IndexKept where
  refl := IndexKept.refl
  trans _ _ _ := IndexKept.trans
  queue _ _ := .of_same rfl
  engine _ _ := .of_same rfl
  faults _ _ := .of_same rfl
  windows _ _ := .of_same rfl
  portRow _ _ := .of_same rfl
  link _ _ _ := .of_same rfl
  suspend := IndexKept.suspendLane
  resume l s _ := (.of_same rfl : IndexKept s (s.updLane l _)).trans (IndexKept.grantRule l _)
  immediate _ _ _ _ := .of_same rfl
  openAnswered l tag s _ := IndexKept.openAnswered l tag s
  silenceNew := IndexKept.silenceNew
  closeDrain := IndexKept.closeDrain
  accept rq s _ := IndexKept.accept rq s
  agentRow _ _ _ _ _ := .of_same rfl
  areaRow _ _ _ _ := .of_same rfl
  class_ _ _ _ _ := .of_same rfl
  invalidate sc s := .of_sublist (invalidateScope_lists sc s).1
  finalChange := IndexKept.finalChange
  grant := IndexKept.grant
  response := IndexKept.memoryResponse
  timeout := IndexKept.responseTimeout
  linkLoss := IndexKept.linkLoss
  startNext s _ := IndexKept.startNext s
  transmissionEnd := IndexKept.transmissionEnd
  count _ := .of_same rfl

theorem join_indexKept (l : Lane) (tag : Tag) (identifier : BitVec 64) (s : State) :
    IndexKept s (sessionParcel l (takeJoin l tag identifier) s) := by
  rcases stepRel_indexKept.join_cases l tag identifier s with kept | ⟨u, before, _, _, e⟩
  · exact kept
  · rw [e]
    exact (before.trans (.of_same rfl : IndexKept u (u.updLane l _))).trans (IndexKept.grantRule l _)

end Sys2Proof.Machine

open Sys2Proof Sys2Proof.Machine in
/-- Settles O56, command by command: the laws of the lists and of the indexes as relations that every step satisfies. -/
theorem listsDrainsAndClassesStaySound : Obligations.ListsDrainsAndClassesStaySound := by
  intro s t run
  have indexed := stepRel_indexKept.step run
  rcases stepRel_listsKept.step run with kept | ⟨straps, rest, front, ran⟩ | ⟨lane, tag, identifier, rest, front, ran⟩
  · refine ⟨kept.tags, kept.drain, kept.open_, ?_⟩
    rcases indexed with same | ⟨straps, rest, _, ran⟩ | ⟨lane, tag, identifier, rest, _, ran⟩
    · exact same
    · rw [lineReset_fields ran]
      exact fun _ => reset_accountLaw.indexes
    · rw [← Host.Outcome.next.inj ran]
      exact join_indexKept _ _ _ { s with pending := rest }
  · rw [lineReset_fields ran]
    have lane : ∀ l, State.reset.lane l = LaneState.reset := reset_lane
    have cls : ∀ c, State.reset.cls c = BudgetClass.reset := reset_cls
    refine ⟨fun _ => reset_accountLaw.tags, fun _ l => ?_, fun _ c => ?_, fun _ => reset_accountLaw.indexes⟩
    · show (State.reset.lane l).drainLaw
      rw [lane]
      decide
    · show (State.reset.cls c).openLaw
      rw [cls]
      decide
  · have e : _ = t := Host.Outcome.next.inj ran
    rw [← e]
    obtain ⟨tags, drain, open_⟩ := join_laws (laneOf lane) tag identifier { s with pending := rest }
    exact ⟨tags, drain, open_, join_indexKept _ _ _ { s with pending := rest }⟩

end

section
/-! The accounts, fifth part: the laws of lanes, areas, waiters and ids under the operations on one slot. -/

namespace Sys2Proof.Machine

/-- No id answers to a piece of the slot with this tag (R121). -/
def State.Quiet (s : State) (l : Lane) (tag : Tag) : Prop :=
  ∀ q ∈ (s.lane l).slots, q.tag = tag → ∀ i, ∀ y ∈ (s.memId i).piece?.toList, y.1.lane = l → ¬q.Pends i y

/-- No piece of the slot with this tag waits (R75). -/
def State.Unwaited (s : State) (l : Lane) (tag : Tag) : Prop := ∀ p ∈ s.allWaiters, ¬(p.lane = l ∧ p.tag = tag)

theorem State.Quiet.of_stage {s : State} {l : Lane} {tag : Tag}
    (h : ∀ q ∈ (s.lane l).slots, q.tag = tag → q.stage ≠ .issued) : s.Quiet l tag :=
  fun q hq e _ _ _ _ pends => h q hq e pends.2.1

/-- No id answers to a slot whose pieces have their outcomes (R31). -/
theorem State.Quiet.of_outcomes {s : State} {l : Lane} {tag : Tag}
    (h : ∀ q ∈ (s.lane l).slots, q.tag = tag → ∀ p ∈ q.pieces, p.status ≠ .pending) : s.Quiet l tag := by
  rintro q hq e _ _ _ _ ⟨_, _, _, x, hx, pending, _⟩
  exact h q hq e x (List.mem_of_getElem? (by simpa using hx)) pending

/-- Slots under one tag of a law-abiding lane are one. -/
theorem BaseLaw.eq_of_tag {s : State} (h : BaseLaw s) {l : Lane} {tag : Tag} {p q : Slot} (found : s.slot? l tag = some q)
    (hp : p ∈ (s.lane l).slots) (e : p.tag = tag) : p = q :=
  List.inj_on_of_nodup_map (h.lane l).tags hp (slot?_mem found) (e.trans (slot?_tag found).symm)

/-! ### Waiters withdrawn -/

theorem BaseLaw.dropWaiters {s : State} (h : BaseLaw s) (l : Lane) (tag : Tag) : BaseLaw (dropWaiters l tag s) where
  lane := h.lane
  apart := h.apart
  idle := h.idle
  indexes := IndexKept.of_sublist (dropWaiters_indexes l tag s) h.indexes
  waiters := by
    obtain ⟨once, stand, _⟩ := h.waiters
    refine ⟨?_, fun p hp => stand p (mem_dropWaiters.1 hp).1, fun e he => ?_⟩
    · rw [dropWaiters_allWaiters]
      exact once.filter _
    · have := (List.mem_filter.1 he).2
      simpa using this
  ids := h.ids

theorem unwaited_dropWaiters (l : Lane) (tag : Tag) (s : State) : (dropWaiters l tag s).Unwaited l tag :=
  fun _ hp => (mem_dropWaiters.1 hp).2

/-! ### One slot replaced, and one removed -/

/-- One slot replaced by another with its units, and the issued count with it. -/
theorem BaseLaw.replaceSlot {s : State} (h : BaseLaw s) {l : Lane} {tag : Tag} {q : Slot} {f : Slot → Slot} {n : Nat}
    (found : s.slot? l tag = some q) (same : q.SameUnits (f q))
    (stage : (f q).stage = .translating ∨ (f q).stage = .queued → q.stage = .translating ∨ q.stage = .queued)
    (issued : n + issuedIn [q] = (s.lane l).issued + issuedIn [f q]) (le : n ≤ (s.agent l).maxOutstanding)
    (waits : ∀ p ∈ s.allWaiters, p.lane = l → q.Waits p → (f q).Waits p)
    (pends : ∀ i, ∀ y ∈ (s.memId i).piece?.toList, y.1.lane = l → q.Pends i y → (f q).Pends i y) :
    BaseLaw (s.updLane l fun r => { r.updSlot tag f with issued := n }) := by
  have joined := h.joined_of_slot? found
  have tagged := slot?_tag found
  subst tagged
  obtain ⟨xs, ys, before, upd, _⟩ := split_of_mem (h.lane l).tags (slot?_mem found)
  have one : OneLane l s (s.updLane l fun r => { r.updSlot q.tag f with issued := n }) := oneLane_updLane s l _
  have lane := updLane_lane_self s l fun r => { r.updSlot q.tag f with issued := n }
  refine h.of_lane one joined ?_ (by rw [lane]; exact joined) h.indexes ?_ ?_
  · rw [lane]
    exact (h.lane l).sameUnits joined before (upd f) same rfl rfl stage issued le
  · refine h.waiters.of_lane rfl one.lanes fun p hp e stands => ?_
    rw [lane]
    exact exists_map_upd (fun x hx t w => by
      rw [h.eq_of_tag found hx t] at w ⊢
      exact waits p hp e w) stands
  · refine h.ids.of_lane one.lanes (fun _ _ => id) fun i y hy e stands => ?_
    rw [lane]
    exact exists_map_upd (fun x hx t w => by
      rw [h.eq_of_tag found hx t] at w ⊢
      exact pends i y hy e w) stands

/-- One slot without units leaves its list. -/
theorem BaseLaw.removeSlot {s : State} (h : BaseLaw s) {l : Lane} {tag : Tag} {q : Slot} {n : Nat}
    (found : s.slot? l tag = some q) (empty : q.held = []) (issued : n + issuedIn [q] = (s.lane l).issued)
    (unwaited : s.Unwaited l tag) (quiet : s.Quiet l tag) :
    BaseLaw (s.updLane l fun r => { r.dropSlot tag with issued := n }) := by
  have joined := h.joined_of_slot? found
  have tagged := slot?_tag found
  subst tagged
  obtain ⟨xs, ys, before, _, dropped⟩ := split_of_mem (h.lane l).tags (slot?_mem found)
  have one : OneLane l s (s.updLane l fun r => { r.dropSlot q.tag with issued := n }) := oneLane_updLane s l _
  have lane := updLane_lane_self s l fun r => { r.dropSlot q.tag with issued := n }
  refine h.of_lane one joined ?_ (by rw [lane]; exact joined) h.indexes ?_ ?_
  · rw [lane]
    exact (h.lane l).drop joined before dropped empty rfl issued rfl
  · refine h.waiters.of_lane rfl one.lanes fun p hp e stands => ?_
    rw [lane]
    exact exists_filter_tag (fun x _ w t => unwaited p hp ⟨e, w.1.symm.trans t⟩) stands
  · refine h.ids.of_lane one.lanes (fun _ _ => id) fun i y hy e stands => ?_
    rw [lane]
    exact exists_filter_tag (fun x hx w t => quiet x hx t i y hy e w) stands

theorem issuedIn_singleton (q : Slot) : issuedIn [q] = if q.stage = .issued then 1 else 0 := by
  rw [issuedIn_cons, issuedIn_nil, Nat.add_zero]

/-- The issued count once a slot has left the ISSUED ones. -/
theorem BaseLaw.leaveIssued {s : State} (h : BaseLaw s) {l : Lane} {tag : Tag} {q : Slot}
    (found : s.slot? l tag = some q) :
    ((s.lane l).leaveIssued q).issued + issuedIn [q] = (s.lane l).issued := by
  rw [leaveIssued_issued, issuedIn_singleton]
  split
  · rename_i issued
    have : 0 < (s.lane l).issued := by
      rw [(h.lane l).issued]
      exact List.length_pos_of_mem (List.mem_filter.2 ⟨slot?_mem found, by simpa using issued⟩)
    omega
  · rfl

/-! ### A slot completed, discarded, freed -/

theorem BaseLaw.stageComplete {s : State} (h : BaseLaw s) {l : Lane} {tag : Tag} {q : Slot} (st : RespStatus)
    (found : s.slot? l tag = some q) (quiet : s.Quiet l tag) : BaseLaw (stageComplete l tag st q s) := by
  have count := h.leaveIssued found
  have le := (h.lane l).issuedLe
  have dropped := (h.dropWaiters l tag).replaceSlot (n := ((s.lane l).leaveIssued q).issued)
    (f := fun q => { q with stage := .complete, status := some st }) found ⟨rfl, rfl, rfl⟩
    (fun e => by rcases e with e | e <;> cases e)
    (by rw [count]; rfl) (by show _ ≤ (s.agent l).maxOutstanding; omega)
    (fun p hp e w => absurd ⟨e, w.1.symm.trans (slot?_tag found)⟩ (unwaited_dropWaiters l tag s p hp))
    (fun i y hy e w => absurd w (quiet q (slot?_mem found) (slot?_tag found) i y hy e))
  have same : Machine.stageComplete l tag st q s = (Machine.dropWaiters l tag s).updLane l fun r =>
      { r.updSlot tag (fun q => { q with stage := .complete, status := some st }) with
        issued := ((s.lane l).leaveIssued q).issued } := by
    show Machine.dropWaiters l tag (s.updLane l _) = _
    rw [updLane_eq_setLane, leaveIssued_eq]
    rfl
  rw [same]
  exact dropped

/-- An answer handed changes no account. -/
theorem BaseLaw.handAnswer {s : State} (h : BaseLaw s) (l : Lane) : BaseLaw (handAnswer l s) := by
  by_cases joined : (s.lane l).session = .detached
  · have empty : (s.lane l).slots = [] := ((h.lane l).away joined).1
    unfold Machine.handAnswer
    rw [empty]
    exact h
  · have lane : ∃ xs, (Machine.handAnswer l s).lane l = { s.lane l with stream := xs } := by
      rw [handAnswer_eq, updLane_lane_self]
      exact ⟨_, rfl⟩
    obtain ⟨xs, lane⟩ := lane
    have one : OneLane l s (Machine.handAnswer l s) :=
      ⟨by rw [handAnswer_eq]; rfl, fun k hk => handAnswer_lane_ne s hk, fun b _ => handAnswer_area l s b⟩
    refine h.of_record one joined (by rw [lane]) (handAnswer_xlat l s) (handAnswer_port l s) ?_ (by rw [lane]; exact joined)
    rw [lane, handAnswer_area]
    exact (h.lane l).congr Iff.rfl rfl rfl rfl

theorem BaseLaw.completeSlot {s : State} (h : BaseLaw s) {l : Lane} {tag : Tag} (st : RespStatus)
    (quiet : s.Quiet l tag) : BaseLaw (completeSlot l tag st s) := by
  cases found : s.slot? l tag with
  | none => unfold Machine.completeSlot; rw [found]; exact h
  | some q =>
    rw [completeSlot_eq st found]
    exact ((h.stageComplete st found quiet).releaseUnits l tag _).handAnswer l

/-- Whoever waits or answers does so as well once units are given back. -/
theorem releaseUnits_frame (l : Lane) (tag : Tag) (gone : HeldUnit → Bool) (s : State) :
    (releaseUnits l tag gone s).xlat = s.xlat ∧ (releaseUnits l tag gone s).port = s.port := by
  refine ⟨IndexKept.releaseUnits_xlat l tag gone s, ?_⟩
  cases found : s.slot? l tag with
  | none => unfold Machine.releaseUnits; rw [found]
  | some q =>
    rw [releaseUnits_eq gone found]
    split
    · exact (grantRule_fields l _).2.2.1
    · rfl

/-- The slot of a tag after it has given back every unit. -/
theorem releaseUnits_slot? {l : Lane} {tag : Tag} {s : State} {q : Slot} (gone : HeldUnit → Bool)
    (found : s.slot? l tag = some q) :
    (releaseUnits l tag gone s).slot? l tag = some { q with held := q.held.filter fun u => !gone u } := by
  obtain ⟨c, w, lane⟩ := releaseUnits_lane l tag gone s
  unfold State.slot?
  rw [lane]
  have upd := slot?_updSlot_self (s.lane l) tag (fun q => { q with held := q.held.filter fun u => !gone u }) fun _ => rfl
  rw [show (s.lane l).slot? tag = some q from found] at upd
  exact upd

theorem Slot.pends_congr {q p : Slot} (tag : p.tag = q.tag) (stage : p.stage = q.stage) (dir : p.dir = q.dir)
    (pieces : p.pieces = q.pieces) {i : MemId} {y : PieceRef × Dir} : p.Pends i y ↔ q.Pends i y := by
  unfold Slot.Pends
  rw [tag, stage, dir, pieces]

theorem State.Quiet.releaseUnits {s : State} {l : Lane} {tag : Tag} (h : s.Quiet l tag) (gone : HeldUnit → Bool) :
    (releaseUnits l tag gone s).Quiet l tag := by
  obtain ⟨c, w, lane⟩ := releaseUnits_lane l tag gone s
  obtain ⟨_, port⟩ := releaseUnits_frame l tag gone s
  intro q hq e i y hy away pends
  rw [lane] at hq
  obtain ⟨p, hp, rfl⟩ := List.mem_map.1 hq
  rw [show (Machine.releaseUnits l tag gone s).memId i = s.memId i by simp only [State.memId, port]] at hy
  by_cases t : p.tag = tag
  · rw [if_pos (by simpa using t)] at pends
    exact h p hp t i y hy away ((Slot.pends_congr rfl rfl rfl rfl).1 pends)
  · rw [if_neg (by simpa using t)] at e
    exact t e

theorem State.Unwaited.congr {s t : State} {l : Lane} {tag : Tag} (h : s.Unwaited l tag) (xlat : t.xlat = s.xlat) :
    t.Unwaited l tag := fun p hp => h p (by rwa [allWaiters_congr xlat] at hp)

/-- A slot that gives back every unit and leaves its list. -/
theorem BaseLaw.leave {s : State} (h : BaseLaw s) {l : Lane} {tag : Tag} {q : Slot} (found : s.slot? l tag = some q)
    (unwaited : s.Unwaited l tag) (quiet : s.Quiet l tag) {n : Nat} (issued : n + issuedIn [q] = (s.lane l).issued) :
    BaseLaw ((Machine.releaseUnits l tag (fun _ => true) s).updLane l fun r => { r.dropSlot tag with issued := n }) := by
  obtain ⟨xlat, _⟩ := releaseUnits_frame l tag (fun _ => true) s
  obtain ⟨c, w, lane⟩ := releaseUnits_lane l tag (fun _ => true) s
  refine (h.releaseUnits l tag fun _ => true).removeSlot (releaseUnits_slot? _ found) (by simp) ?_ (unwaited.congr xlat)
    (quiet.releaseUnits _)
  rw [lane]
  rw [issuedIn_singleton] at issued ⊢
  exact issued

theorem BaseLaw.discardSlot {s : State} (h : BaseLaw s) {l : Lane} {tag : Tag} (quiet : s.Quiet l tag) :
    BaseLaw (discardSlot l tag s) := by
  cases found : s.slot? l tag with
  | none => unfold Machine.discardSlot; rw [found]; exact h
  | some q =>
    have left := (h.dropWaiters l tag).leave found (unwaited_dropWaiters l tag s) quiet (h.leaveIssued found)
    have same : Machine.discardSlot l tag s = (Machine.releaseUnits l tag (fun _ => true)
        (Machine.dropWaiters l tag s)).updLane l fun r =>
          { r.dropSlot tag with issued := ((s.lane l).leaveIssued q).issued } := by
      unfold Machine.discardSlot
      rw [found]
      obtain ⟨c, w, lane⟩ := releaseUnits_lane l tag (fun _ => true) (Machine.dropWaiters l tag s)
      dsimp only
      rw [updLane_eq_setLane, updLane_eq_setLane, lane, leaveIssued_eq, leaveIssued_issued, leaveIssued_issued]
      rfl
    rw [same]
    exact left

/-- A slot that is SENDING or COMPLETE is freed. -/
theorem BaseLaw.freeSlot {s : State} (h : BaseLaw s) {l : Lane} {tag : Tag}
    (done : ∀ q ∈ (s.lane l).slots, q.tag = tag → q.stage = .complete ∨ q.stage = .sending) :
    BaseLaw (freeSlot l tag s) := by
  cases found : s.slot? l tag with
  | none =>
    have same : Machine.freeSlot l tag s = s := by
      unfold Machine.freeSlot Machine.releaseUnits
      rw [found]
      refine updLane_self ?_
      unfold LaneState.dropSlot
      rw [List.filter_eq_self.2 fun q hq => ?_]
      have : ¬(q.tag == tag) = true := List.find?_eq_none.1 found q hq
      simpa using this
    rw [same]
    exact h
  | some q =>
    have stage := done q (slot?_mem found) (slot?_tag found)
    have unwaited : s.Unwaited l tag := fun p hp ⟨e, t⟩ => by
      obtain ⟨x, hx, tagged, translating, _⟩ := h.waiters.2.1 p hp
      rw [e] at hx
      rw [h.eq_of_tag found hx (tagged.trans t)] at translating
      rcases stage with e | e <;> rw [e] at translating <;> cases translating
    have quiet : s.Quiet l tag := .of_stage fun x hx e => by
      rcases done x hx e with e | e <;> rw [e] <;> decide
    have none_ : issuedIn [q] = 0 := by
      rw [issuedIn_singleton, if_neg]
      rcases stage with e | e <;> rw [e] <;> decide
    have left := h.leave found unwaited quiet (n := (s.lane l).issued) (by rw [none_]; rfl)
    have same : Machine.freeSlot l tag s = (Machine.releaseUnits l tag (fun _ => true) s).updLane l fun r =>
        { r.dropSlot tag with issued := (s.lane l).issued } := by
      obtain ⟨c, w, lane⟩ := releaseUnits_lane l tag (fun _ => true) s
      unfold Machine.freeSlot
      rw [updLane_eq_setLane, updLane_eq_setLane, lane]
      rfl
    rw [same]
    exact left

end Sys2Proof.Machine
end

section
/-! The accounts, sixth part: drains, entry to DETACHED and the final change of RESTART. -/

namespace Sys2Proof.Machine

/-- The account law but for the streams where lists, credit, areas, rows and pieces of ids stay. -/
theorem BaseLaw.congr {s t : State} (h : BaseLaw s) (agents : t.agents = s.agents) (areas : t.areas = s.areas)
    (lane : ∀ l, ((t.lane l).session = .detached ↔ (s.lane l).session = .detached) ∧ (t.lane l).slots = (s.lane l).slots
      ∧ (t.lane l).issued = (s.lane l).issued ∧ (t.lane l).credit = (s.lane l).credit)
    (ids : ∀ i, (t.memId i).piece? = (s.memId i).piece?) (indexes : IndexLaw t)
    (waiters : t.allWaiters.Sublist s.allWaiters) (waiting : t.xlat.waiting = s.xlat.waiting) : BaseLaw t where
  lane l := by
    obtain ⟨session, slots, issued, credit⟩ := lane l
    simp only [State.agent, State.area, agents, areas]
    exact (h.lane l).congr session slots issued credit
  apart l k := by simp only [State.agent, agents]; exact h.apart l k
  idle a none_ := by
    simp only [State.area, areas]
    refine h.idle a fun l joined => ?_
    have := none_ l fun e => joined ((lane l).1.1 e)
    simpa only [State.agent, agents] using this
  indexes := indexes
  waiters := by
    obtain ⟨once, stand, wait⟩ := h.waiters
    refine ⟨once.sublist waiters, fun p hp => ?_, by rw [waiting]; exact wait⟩
    rw [(lane p.lane).2.1]
    exact stand p (waiters.subset hp)
  ids i y hy := by
    rw [ids] at hy
    rw [(lane y.1.lane).2.1]
    exact h.ids i y hy

/-- The same where the translation unit stays too. -/
theorem BaseLaw.congr_lanes {s t : State} (h : BaseLaw s) (agents : t.agents = s.agents) (areas : t.areas = s.areas)
    (xlat : t.xlat = s.xlat) (ids : ∀ i, (t.memId i).piece? = (s.memId i).piece?)
    (lane : ∀ l, ((t.lane l).session = .detached ↔ (s.lane l).session = .detached) ∧ (t.lane l).slots = (s.lane l).slots
      ∧ (t.lane l).issued = (s.lane l).issued ∧ (t.lane l).credit = (s.lane l).credit) : BaseLaw t :=
  h.congr agents areas lane ids (h.indexes.congr xlat) (by rw [allWaiters_congr xlat])
    (by rw [xlat])

/-- A record of one lane changed where no account looks. -/
theorem BaseLaw.updRecord {s : State} (h : BaseLaw s) {l : Lane} {f : LaneState → LaneState}
    (session : (f (s.lane l)).session = .detached ↔ (s.lane l).session = .detached)
    (slots : (f (s.lane l)).slots = (s.lane l).slots) (issued : (f (s.lane l)).issued = (s.lane l).issued)
    (credit : (f (s.lane l)).credit = (s.lane l).credit) : BaseLaw (s.updLane l f) :=
  h.congr_lanes rfl rfl rfl (fun _ => rfl) fun k => by
    by_cases e : k = l
    · subst e
      rw [updLane_lane_self]
      exact ⟨session, slots, issued, credit⟩
    · rw [updLane_lane_ne s f e]
      exact ⟨Iff.rfl, rfl, rfl, rfl⟩

/-- A joined lane whose list is empty enters DETACHED (R18). -/
theorem BaseLaw.detach {s : State} (h : BaseLaw s) {l : Lane} (joined : (s.lane l).session ≠ .detached)
    (empty : (s.lane l).slots = []) : BaseLaw (s.updLane l LaneState.detach) where
  lane k := by
    by_cases e : k = l
    · subst e
      rw [updLane_lane_self]
      refine { h.lane k with
        away := fun _ => ⟨empty, ?_, rfl⟩
        enabled := fun x => absurd rfl x
        counts := fun x => absurd rfl x }
      show (s.lane k).issued = 0
      rw [(h.lane k).issued, empty]
      rfl
    · rw [updLane_lane_ne s _ e]
      exact h.lane k
  apart := h.apart
  idle a none_ := by
    by_cases e : a = (s.agent l).area
    · subst e
      obtain ⟨occupied, reserved, filled, _, _⟩ := (h.lane l).counts joined
      rw [empty] at occupied reserved filled
      exact ⟨occupied, reserved, filled⟩
    · refine h.idle a fun k hk => ?_
      by_cases same : k = l
      · subst same; exact Ne.symm e
      · exact none_ k (by rw [updLane_lane_ne s _ same]; exact hk)
  indexes := h.indexes
  waiters := h.waiters.of_lane rfl (fun k hk => updLane_lane_ne s _ hk) fun p _ _ stands => by
    rw [updLane_lane_self]; exact stands
  ids := h.ids.of_lane (fun k hk => updLane_lane_ne s _ hk) (fun _ _ => id) fun i y _ _ stands => by
    rw [updLane_lane_self]; exact stands

theorem released_piece? (x : IdState) : x.released.piece? = x.piece? := by cases x <;> rfl

theorem BaseLaw.mgmt {s : State} (h : BaseLaw s) (f : Mgmt → Mgmt) : BaseLaw (s.withMgmt f) :=
  ⟨h.lane, h.apart, h.idle, h.indexes, h.waiters, h.ids⟩

theorem BaseLaw.endOp {s : State} (h : BaseLaw s) : BaseLaw (endOp s) := by
  rw [endOp_fields]
  exact ⟨h.lane, h.apart, h.idle, h.indexes, h.waiters, h.ids⟩

theorem BaseLaw.finalChange {s : State} (h : BaseLaw s) : BaseLaw (finalChange s) := by
  unfold Machine.finalChange
  refine BaseLaw.endOp (h.congr rfl rfl (fun _ => ⟨Iff.rfl, rfl, rfl, rfl⟩) (fun i => ?_) ?_ ?_ rfl)
  · simp only [State.memId, mapVec_get]
    exact released_piece? _
  · exact List.Nodup.sublist (And.left (readyFreed_lists rfl rfl rfl)) h.indexes
  · exact And.right (readyFreed_lists rfl rfl rfl)

/-- The record of a lane whose drain becomes SILENT, before its slots go (R17, R40). -/
def LaneState.silenced (started : Bool) (r : LaneState) : LaneState :=
  { r with session := .draining, drain := .silent, closingOwed := none, stream := keptStream started r.stream }

/-- The accounts hold again. -/
def AccountKept (s t : State) : Prop := AccountLaw s → AccountLaw t

namespace AccountKept

theorem refl (s : State) : AccountKept s s := id

theorem trans {s t u : State} (a : AccountKept s t) (b : AccountKept t u) : AccountKept s u := fun h => b (a h)

theorem of_parts {s t : State} (base : BaseLaw s → BaseLaw t) (streams : StreamLaw s → StreamLaw t) : AccountKept s t :=
  fun h => (base h.base).account (streams h.streams)

theorem forEach {α : Type} {f : α → State → State} (step : ∀ x s, AccountKept s (f x s)) (xs : List α) (s : State) :
    AccountKept s (forEach xs f s) := forEach_rel AccountKept refl (fun _ _ _ => trans) f step xs s

/-- A change where no account looks. -/
theorem of_same {s t : State} (lanes : t.lanes = s.lanes) (agents : t.agents = s.agents) (areas : t.areas = s.areas)
    (xlat : t.xlat = s.xlat) (port : t.port = s.port) (link : t.link.tx = s.link.tx) : AccountKept s t :=
  of_parts
    (fun h => h.congr_lanes agents areas xlat (fun i => by simp only [State.memId, port])
      (fun l => by simp only [State.lane, lanes, and_self]))
    fun h => h.congr lanes link

theorem endOp (s : State) : AccountKept s (endOp s) := by
  rw [endOp_fields]
  exact of_same rfl rfl rfl rfl rfl rfl

theorem finalChange (s : State) : AccountKept s (finalChange s) :=
  of_parts BaseLaw.finalChange fun h => by
    unfold Machine.finalChange
    rw [endOp_fields]
    exact h.congr rfl rfl

theorem restartMemory (s : State) : AccountKept s (restartMemory s) := by
  unfold Machine.restartMemory
  split
  · exact finalChange s
  · exact refl s

theorem restartProgress (s : State) : AccountKept s (restartProgress s) := by
  unfold Machine.restartProgress
  split
  · exact (of_same rfl rfl rfl rfl rfl rfl : AccountKept s (s.withMgmt _)).trans (restartMemory _)
  · exact restartMemory s

/-- What DETACHED leaves in a stream: what was there, and the closing reply that was owed. -/
theorem detach_stream (r : LaneState) :
    r.detach.stream = r.stream ∨ ∃ tag, r.detach.stream = r.stream ++ [.closing tag r.number] := by
  unfold LaneState.detach
  dsimp only
  split
  · exact .inr ⟨_, rfl⟩
  · exact .inl rfl

theorem enterDetached {l : Lane} {s : State} (joined : (s.lane l).session ≠ .detached) (empty : (s.lane l).slots = []) :
    AccountKept s (enterDetached l s) := by
  have detached : AccountKept s (s.updLane l LaneState.detach) :=
    of_parts (fun h => h.detach joined empty) fun h =>
      h.of_lane (fun _ hk => updLane_lane_ne s _ hk) rfl fun ok => by
        rw [updLane_lane_self]
        rcases detach_stream (s.lane l) with e | ⟨tag, e⟩
        · exact ok.congr e rfl
        · exact ok.append rfl e rfl
  unfold Machine.enterDetached
  dsimp only
  split
  · exact (detached.trans (endOp _)).trans (restartProgress _)
  · exact detached.trans (restartProgress _)

theorem closeDrain (l : Lane) (s : State) : AccountKept s (closeDrain l s) := by
  by_cases open_ : (s.lane l).session ≠ .draining ∨ (s.lane l).slots ≠ []
  · rw [closeDrain_of_open open_]; exact refl s
  · push Not at open_
    obtain ⟨draining, empty⟩ := open_
    rw [closeDrain_of_empty draining empty]
    exact enterDetached (by rw [draining]; decide) empty

theorem handAnswer (l : Lane) (s : State) : AccountKept s (handAnswer l s) :=
  of_parts (fun h => h.handAnswer l) fun h => h.handAnswer l

theorem afterLeaving (l : Lane) (s : State) : AccountKept s (afterLeaving l s) := (handAnswer l s).trans (closeDrain l _)

theorem grantRule (l : Lane) (s : State) : AccountKept s (grantRule l s) :=
  of_parts (fun h => h.grantRule l) fun h => h.grantRule l

end AccountKept

/-! ### Slots that are neither ISSUED nor SENDING -/

/-- The slot of this tag is neither ISSUED nor SENDING. -/
def State.Calm (s : State) (l : Lane) (tag : Tag) : Prop :=
  ∀ q ∈ (s.lane l).slots, q.tag = tag → q.stage ≠ .issued ∧ q.stage ≠ .sending

/-- No slot appears, and none becomes ISSUED or SENDING. -/
def CalmKept (s t : State) : Prop :=
  ∀ l, ∀ q ∈ (t.lane l).slots, ∃ p ∈ (s.lane l).slots, p.tag = q.tag
    ∧ (q.stage = .issued ∨ q.stage = .sending → p.stage = q.stage)

theorem CalmKept.calm {s t : State} (h : CalmKept s t) {l : Lane} {tag : Tag} (calm : s.Calm l tag) : t.Calm l tag := by
  intro q hq e
  obtain ⟨p, hp, same, stage⟩ := h l q hq
  obtain ⟨issued, sending⟩ := calm p hp (same.trans e)
  exact ⟨fun x => issued ((stage (.inl x)).trans x), fun x => sending ((stage (.inr x)).trans x)⟩

theorem State.Calm.quiet {s : State} {l : Lane} {tag : Tag} (h : s.Calm l tag) : s.Quiet l tag :=
  .of_stage fun q hq e => (h q hq e).1

namespace CalmKept

theorem of_slots {s t : State} (h : ∀ l, (t.lane l).slots = (s.lane l).slots) : CalmKept s t := fun l q hq =>
  ⟨q, h l ▸ hq, rfl, fun _ => rfl⟩

theorem refl (s : State) : CalmKept s s := of_slots fun _ => rfl

theorem trans {s t u : State} (a : CalmKept s t) (b : CalmKept t u) : CalmKept s u := by
  intro l q hq
  obtain ⟨p, hp, tag, stage⟩ := b l q hq
  obtain ⟨x, hx, tag', stage'⟩ := a l p hp
  refine ⟨x, hx, tag'.trans tag, fun e => ?_⟩
  have same := stage e
  rw [← same]
  exact stage' (by rw [same]; exact e)

/-- One lane's list, mapped and thinned out. -/
theorem of_lane {s t : State} {l : Lane} (others : ∀ k, k ≠ l → t.lane k = s.lane k)
    (lane : ∀ q ∈ (t.lane l).slots, ∃ p ∈ (s.lane l).slots, p.tag = q.tag
      ∧ (q.stage = .issued ∨ q.stage = .sending → p.stage = q.stage)) : CalmKept s t := by
  intro k q hq
  by_cases e : k = l
  · subst e; exact lane q hq
  · rw [others k e] at hq
    exact ⟨q, hq, rfl, fun _ => rfl⟩

theorem updSlot (s : State) (l : Lane) (tag : Tag) {f : Slot → Slot} (tags : ∀ q, (f q).tag = q.tag)
    (stage : ∀ q, (f q).stage = .issued ∨ (f q).stage = .sending → q.stage = (f q).stage) :
    CalmKept s (s.updSlot l tag f) :=
  of_lane (fun _ hk => updSlot_lane_ne s tag f hk) fun q hq => by
    rw [updSlot_lane_self] at hq
    obtain ⟨p, hp, rfl⟩ := List.mem_map.1 hq
    refine ⟨p, hp, ?_⟩
    split
    · exact ⟨(tags p).symm, stage p⟩
    · exact ⟨rfl, fun _ => rfl⟩

theorem grantRule (l : Lane) (s : State) : CalmKept s (grantRule l s) := of_slots fun k => by
  rw [grantRule_lane]
  split
  · rename_i h; rw [h.1]
  · rfl

theorem releaseUnits (l : Lane) (tag : Tag) (gone : HeldUnit → Bool) (s : State) :
    CalmKept s (releaseUnits l tag gone s) := by
  unfold Machine.releaseUnits
  split
  · exact refl s
  · have released : CalmKept s (s.updSlot l tag fun q => { q with held := q.held.filter fun u => !gone u }) :=
      updSlot s l tag (fun _ => rfl) fun _ _ => rfl
    dsimp only
    split
    · exact CalmKept.trans released (CalmKept.trans (of_slots fun _ => rfl) (grantRule l _))
    · exact CalmKept.trans released (of_slots fun _ => rfl)

theorem handAnswer (l : Lane) (s : State) : CalmKept s (handAnswer l s) := of_slots fun k => by
  rw [handAnswer_eq, updLane_lane]
  split
  · rename_i h; rw [h]
  · rfl

theorem completeSlot (l : Lane) (tag : Tag) (st : RespStatus) (s : State) : CalmKept s (completeSlot l tag st s) := by
  cases found : s.slot? l tag with
  | none => unfold Machine.completeSlot; rw [found]; exact refl s
  | some q =>
    rw [completeSlot_eq st found]
    refine CalmKept.trans (CalmKept.trans (of_lane (l := l) (fun k hk => ?_) fun x hx => ?_) (releaseUnits l tag _ _))
      (handAnswer l _)
    · unfold stageComplete
      rw [dropWaiters_lane, updLane_lane_ne s _ hk]
    · rw [stageComplete_lane] at hx
      obtain ⟨p, hp, rfl⟩ := List.mem_map.1 hx
      refine ⟨p, hp, ?_⟩
      split
      · exact ⟨rfl, fun e => by rcases e with e | e <;> cases e⟩
      · exact ⟨rfl, fun _ => rfl⟩

theorem discardSlot (l : Lane) (tag : Tag) (s : State) : CalmKept s (discardSlot l tag s) := by
  unfold Machine.discardSlot
  split
  · exact refl s
  · rename_i q _
    refine CalmKept.trans (CalmKept.trans (of_slots fun _ => rfl) (releaseUnits l tag (fun _ => true)
      (dropWaiters l tag s))) (of_lane (l := l) (fun k hk => updLane_lane_ne _ _ hk) fun x hx => ?_)
    rw [updLane_lane_self] at hx
    have := (List.mem_filter.1 hx).1
    rw [leaveIssued_slots] at this
    exact ⟨x, this, rfl, fun _ => rfl⟩

end CalmKept

/-! ### Drains -/

namespace AccountKept

theorem completeSlot {l : Lane} {tag : Tag} {s : State} (st : RespStatus) (calm : s.Calm l tag) :
    AccountKept s (completeSlot l tag st s) :=
  of_parts (fun h => h.completeSlot st calm.quiet) fun h => h.completeSlot st fun q hq e => (calm q hq e).2

/-- Slots of a lane that are neither ISSUED nor SENDING become COMPLETE one after another. -/
theorem completeSlots {l : Lane} (st : RespStatus) : ∀ (tags : List Tag) {s : State}, (∀ tag ∈ tags, s.Calm l tag) →
    AccountKept s (Machine.forEach tags (fun tag => Machine.completeSlot l tag st) s)
  | [], _, _ => refl _
  | tag :: tags, _, calm =>
    (completeSlot st (calm tag (List.mem_cons_self ..))).trans
      (completeSlots st tags fun x hx => (CalmKept.completeSlot l tag st _).calm (calm x (List.mem_cons_of_mem _ hx)))

theorem openAnswered {l : Lane} {s : State} (tag : Tag) (joined : (s.lane l).session ≠ .detached) :
    AccountKept s (openAnswered l tag s) := by
  intro h
  have opened : AccountLaw (s.updLane l fun r =>
      { r with session := .draining, drain := .answered, closingOwed := some tag }) :=
    (h.base.updRecord (Iff.intro (fun e => by cases e) fun e => absurd e joined) rfl rfl rfl).account
      (h.streams.of_lane (fun _ hk => updLane_lane_ne s _ hk) rfl fun ok => by
        rw [updLane_lane_self]; exact ok.congr rfl rfl)
  unfold Machine.openAnswered
  dsimp only
  refine closeDrain l _ (completeSlots .cancelled _ (fun x hx q hq e => ?_) opened)
  obtain ⟨p, hp, rfl⟩ := List.mem_map.1 hx
  obtain ⟨hp, unissued⟩ := List.mem_filter.1 hp
  rw [List.inj_on_of_nodup_map (opened.tags l) hq hp e]
  unfold Slot.unissued at unissued
  cases stage : p.stage <;> simp [stage] at unissued ⊢

/-- A slot that no answer stands for is discarded. -/
theorem discardSlot {l : Lane} {tag : Tag} {s : State} (quiet : s.Quiet l tag) (free : tag ∉ (s.lane l).answered) :
    AccountKept s (discardSlot l tag s) :=
  of_parts (fun h => h.discardSlot quiet) fun h => h.discardSlot free

/-- To discard a slot leaves the stream. -/
theorem discardSlot_stream (l : Lane) (tag : Tag) (s : State) :
    ((Machine.discardSlot l tag s).lane l).stream = (s.lane l).stream := by
  unfold Machine.discardSlot
  split
  · rfl
  · obtain ⟨c, w, lane⟩ := releaseUnits_lane l tag (fun _ => true) (dropWaiters l tag s)
    rw [updLane_lane_self, lane, leaveIssued_eq]
    rfl

theorem discardSlots {l : Lane} : ∀ (tags : List Tag) {s : State}, (∀ tag ∈ tags, s.Calm l tag) →
    (∀ tag ∈ tags, tag ∉ (s.lane l).answered) → AccountKept s (Machine.forEach tags (Machine.discardSlot l) s)
  | [], _, _, _ => refl _
  | tag :: tags, s, calm, free => by
    refine (discardSlot (calm tag (List.mem_cons_self ..)).quiet (free tag (List.mem_cons_self ..))).trans
      (discardSlots tags (fun x hx => (CalmKept.discardSlot l tag s).calm (calm x (List.mem_cons_of_mem _ hx))) ?_)
    intro x hx
    unfold LaneState.answered
    rw [discardSlot_stream]
    exact free x (List.mem_cons_of_mem _ hx)

theorem keptStream_sublist (started : Bool) (xs : List StreamItem) : (keptStream started xs).Sublist xs := by
  unfold keptStream
  split
  · conv_rhs => rw [← List.take_append_drop 1 xs]
    rw [List.drop_one]
    exact (List.Sublist.refl _).append List.filter_sublist
  · exact List.filter_sublist

theorem keptStream_head (xs : List StreamItem) : (keptStream true xs).head? = xs.head? := by
  cases xs <;> rfl

theorem closing_answers {xs : List StreamItem} : (xs.filter StreamItem.isClosing).filterMap StreamItem.answers = [] := by
  rw [List.filterMap_eq_nil_iff]
  intro x hx
  have closing := (List.mem_filter.1 hx).2
  cases x <;> simp [StreamItem.isClosing] at closing
  rfl

theorem streamStarted_iff {s : State} {l : Lane} : s.streamStarted l = true ↔ s.link.Started l := by
  unfold State.streamStarted LinkPort.Started
  cases s.link.tx <;> simp

/-- The answer that R40 leaves in a stream is that of a SENDING slot. -/
theorem keptStream_answers {r : LaneState} {s : State} {l : Lane} (ok : r.StreamOk (s.link.Started l)) {tag : Tag}
    (h : tag ∈ (keptStream (s.streamStarted l) r.stream).filterMap StreamItem.answers) :
    ∃ q ∈ r.slots, q.tag = tag ∧ q.stage = .sending := by
  unfold keptStream at h
  split at h
  · rename_i started
    rw [List.filterMap_append, closing_answers, List.append_nil] at h
    refine (ok.sending (streamStarted_iff.1 started)).2 tag ?_
    cases list : r.stream with
    | nil => rw [list] at h; cases h
    | cons x xs =>
      rw [list] at h
      simpa [eq_comm] using h
  · rw [closing_answers] at h
    cases h

theorem silence {l : Lane} {s : State} (joined : (s.lane l).session ≠ .detached) : AccountKept s (silence l s) := by
  intro h
  have ok := streamLaw_iff.1 h.streams l
  have opened : AccountLaw (s.updLane l (LaneState.silenced (s.streamStarted l))) :=
    (h.base.updRecord (Iff.intro (fun e => by cases e) fun e => absurd e joined) rfl rfl rfl).account
      (h.streams.of_lane (fun _ hk => updLane_lane_ne s _ hk) rfl fun ok => by
        rw [updLane_lane_self]
        refine ok.sublist (keptStream_sublist _ _) rfl fun started => ?_
        show (keptStream (s.streamStarted l) _).head? = _
        rw [streamStarted_iff.2 started]
        exact keptStream_head _)
  have lane : (s.updLane l (LaneState.silenced (s.streamStarted l))).lane l =
      LaneState.silenced (s.streamStarted l) (s.lane l) := updLane_lane_self s l _
  have gone : ∀ q ∈ ((s.updLane l (LaneState.silenced (s.streamStarted l))).lane l).slots, q.tag ∈ ((s.updLane l (LaneState.silenced (s.streamStarted l))).lane l).silentTags →
      q.stage ≠ .issued ∧ q.stage ≠ .sending := by
    intro q hq hx
    obtain ⟨p, hp, e⟩ := List.mem_map.1 hx
    obtain ⟨hp, silent⟩ := List.mem_filter.1 hp
    rw [List.inj_on_of_nodup_map (opened.tags l) hq hp e.symm]
    unfold Slot.unissued at silent
    cases stage : p.stage <;> simp [stage] at silent ⊢
  unfold Machine.silence
  refine closeDrain l _ (discardSlots _ (fun x hx q hq e => gone q hq (e ▸ hx)) (fun x hx answered => ?_) opened)
  have answered : x ∈ ((s.updLane l (LaneState.silenced (s.streamStarted l))).lane l).answered := answered
  rw [lane] at answered
  obtain ⟨q, hq, e, sending⟩ := keptStream_answers ok answered
  exact (gone q (by rw [lane]; exact hq) (e ▸ hx)).2 sending

theorem silenceNew (l : Lane) (s : State) : AccountKept s (silenceNew l s) := by
  unfold Machine.silenceNew
  split
  · exact refl s
  · rename_i joined
    exact silence fun e => joined (by rw [e]; rfl)

theorem silenceJoined (l : Lane) (s : State) : AccountKept s (silenceJoined l s) := by
  unfold Machine.silenceJoined
  split
  · exact refl s
  · rename_i joined
    exact silence fun e => joined (by rw [e]; rfl)

end AccountKept

end Sys2Proof.Machine
end

section
/-! The accounts, seventh part: free units of a share, and the acceptance of a request. -/

namespace Sys2Proof.Machine

/-! ### Free units of a share (R91, R95) -/

/-- The units held by the slots of a direction, counted as a list. -/
theorem unitsHeld_all (dir : Dir) (qs : List Slot) :
    unitsHeld dir (fun _ => true) qs = ((qs.filter fun q => q.dir == dir).flatMap fun q => q.held.map (·.unit)).length := by
  unfold unitsHeld
  rw [List.length_flatMap]
  simp

theorem unitsHeld_split (dir : Dir) (p : HeldUnit → Bool) (qs : List Slot) :
    unitsHeld dir (fun u => !p u) qs + unitsHeld dir p qs = unitsHeld dir (fun _ => true) qs := by
  induction qs with
  | nil => rfl
  | cons q qs ih =>
    simp only [unitsHeld_cons, List.filter_true]
    have := filter_not_length p q.held
    split <;> omega

theorem mem_freeUnits {r : LaneState} {share : List Nat} {n u : Nat} (h : u ∈ r.freeUnits share n) :
    u ∈ share ∧ u ∉ r.heldUnits := by
  have := List.mem_filter.1 (List.mem_of_mem_take h)
  simpa using this

theorem freeUnits_nodup {r : LaneState} {share : List Nat} (once : share.Nodup) (n : Nat) :
    (r.freeUnits share n).Nodup := (once.filter _).sublist (List.take_sublist _ _)

/-- A share whose direction's slots leave room has that many free units. -/
theorem freeUnits_length {r : LaneState} {dir : Dir} {share : List Nat} {n : Nat} (once : share.Nodup)
    (other : ∀ q ∈ r.slots, q.dir ≠ dir → ∀ u ∈ q.held, u.unit ∉ share)
    (room : n + unitsHeld dir (fun _ => true) r.slots ≤ share.length) : (r.freeUnits share n).length = n := by
  have split := filter_not_length (fun u => r.heldUnits.contains u) share
  have used : (share.filter fun u => r.heldUnits.contains u).length ≤ unitsHeld dir (fun _ => true) r.slots := by
    rw [unitsHeld_all]
    refine (List.subperm_of_subset (once.filter _) fun u hu => ?_).length_le
    obtain ⟨inShare, held⟩ := List.mem_filter.1 hu
    have held : u ∈ r.slots.flatMap fun q => q.held.map (·.unit) := by simpa [LaneState.heldUnits] using held
    obtain ⟨q, hq, hu⟩ := List.mem_flatMap.1 held
    obtain ⟨x, hx, rfl⟩ := List.mem_map.1 hu
    have same : q.dir = dir := by
      by_contra e
      exact other q hq e x hx inShare
    exact List.mem_flatMap.2 ⟨q, List.mem_filter.2 ⟨hq, by simpa using same⟩, hu⟩
  unfold LaneState.freeUnits
  rw [List.length_take]
  omega

theorem mem_writeShare {row : AreaRow} {u : Nat} :
    u ∈ row.writeShare ↔ row.firstUnit ≤ u ∧ u < row.firstUnit + row.writeUnits := List.mem_range'_1

theorem mem_readShare {row : AreaRow} {u : Nat} :
    u ∈ row.readShare ↔
      row.firstUnit + row.writeUnits ≤ u ∧ u < row.firstUnit + row.writeUnits + row.readUnits := List.mem_range'_1

theorem writeShare_nodup (row : AreaRow) : row.writeShare.Nodup := List.nodup_range'

theorem readShare_nodup (row : AreaRow) : row.readShare.Nodup := List.nodup_range'

/-- A WRITE within the credit finds its units free in the write share (R91). -/
theorem LaneLaws.freeWrite {row : AgentRow} {a : Area} {r : LaneState} (h : LaneLaws row a r)
    (joined : r.session ≠ .detached) {n : Nat} (credit : n ≤ r.credit) :
    (r.freeUnits a.row.writeShare n).length = n := by
  have counts := h.counts joined
  have occupied := counts.occupied
  have within := counts.writeShare
  refine freeUnits_length (dir := .write) (writeShare_nodup _) (fun q hq e u hu share => ?_) ?_
  · have read : q.dir = .read := by cases d : q.dir <;> simp [d] at e ⊢
    have := (h.shares q hq).read read u hu
    rw [mem_writeShare] at share
    omega
  · rw [show a.row.writeShare.length = a.row.writeUnits from List.length_range']
    omega

/-- A READ within the read room finds its units free in the read share (R94, R95). -/
theorem LaneLaws.freeRead {row : AgentRow} {a : Area} {r : LaneState} (h : LaneLaws row a r)
    (joined : r.session ≠ .detached) {n : Nat} (room : n + (a.readReserved + a.readFilled) ≤ a.row.readUnits) :
    (r.freeUnits a.row.readShare n).length = n := by
  have counts := h.counts joined
  have reserved := counts.reserved
  have filled := counts.filled
  have split := unitsHeld_split .read (·.filled) r.slots
  refine freeUnits_length (dir := .read) (readShare_nodup _) (fun q hq e u hu share => ?_) ?_
  · have write : q.dir = .write := by cases d : q.dir <;> simp [d] at e ⊢
    have := (h.shares q hq).write write u hu
    rw [mem_readShare] at share
    omega
  · rw [show a.row.readShare.length = a.row.readUnits from List.length_range']
    omega

/-! ### A slot joins its list (R26) -/

/-- A slot that is not ISSUED joins the tail of the list. -/
theorem LaneLaws.append {row : AgentRow} {a b : Area} {r p : LaneState} {q : Slot} (h : LaneLaws row a r)
    (joined : r.session ≠ .detached) (after : p.slots = r.slots ++ [q]) (fresh : q.tag ∉ r.tags)
    (session : p.session = r.session) (issued : p.issued = r.issued) (stage : q.stage ≠ .issued) (area : b.row = a.row)
    (units : (q.held.map (·.unit)).Nodup) (apart : ∀ u ∈ q.held, u.unit ∉ r.heldUnits) (share : q.InShare a.row)
    (counts : b.CountsOf p.slots p.credit) : LaneLaws row b p where
  tags := by
    unfold LaneState.tags
    rw [after, List.map_append, List.map_cons, List.map_nil, ← List.concat_eq_append]
    exact h.tags.concat fresh
  away e := absurd (session ▸ e) joined
  enabled _ := h.enabled joined
  issued := by
    rw [issued, after, issuedIn_append, issuedIn_singleton, if_neg stage, h.issued]
    rfl
  issuedLe := issued ▸ h.issuedLe
  units := by
    rw [after, unitsOf_append, unitsOf_cons, unitsOf_nil, List.append_nil, List.nodup_append']
    refine ⟨h.units, units, fun u hu hv => ?_⟩
    obtain ⟨x, hx, rfl⟩ := List.mem_map.1 hv
    exact apart x hx hu
  shares x hx := by
    rw [area]
    rw [after] at hx
    rcases List.mem_append.1 hx with hx | hx
    · exact h.shares x hx
    · rw [List.mem_singleton.1 hx]
      exact share
  counts _ := counts

/-- The law but for the streams after a slot has joined one lane's list. -/
theorem BaseLaw.append {s t : State} (h : BaseLaw s) {l : Lane} {q : Slot} (one : OneLane l s t)
    (joined : (s.lane l).session ≠ .detached) (after : (t.lane l).slots = (s.lane l).slots ++ [q])
    (session : (t.lane l).session = (s.lane l).session) (xlat : t.xlat = s.xlat) (port : t.port = s.port)
    (lane : LaneLaws (s.agent l) (t.area (s.agent l).area) (t.lane l)) : BaseLaw t := by
  have later : ∀ P : Slot → Prop, (∃ q ∈ (s.lane l).slots, P q) → ∃ q ∈ (t.lane l).slots, P q := fun P ⟨x, hx, e⟩ =>
    ⟨x, by rw [after]; exact List.mem_append_left _ hx, e⟩
  refine h.of_lane one joined lane (by rw [session]; exact joined) (h.indexes.congr xlat) ?_ ?_
  · exact h.waiters.of_lane xlat one.lanes fun p _ _ => later _
  · exact h.ids.of_lane one.lanes (fun i y hy => by simpa only [State.memId, port] using hy) fun i y _ _ => later _

theorem newSlot_stage (rq : Request) (number : BitVec 8) (d : Decoded) (units : List Nat) :
    (newSlot rq number d units).stage ≠ .issued ∧ (newSlot rq number d units).stage ≠ .sending := by
  cases d <;> exact ⟨nofun, nofun⟩

/-- The slot that an accepted request gets, with the units of a WRITE (R26, R91). -/
def State.slotOf (s : State) (rq : Request) (d : Decoded) : Slot :=
  newSlot rq (s.lane rq.lane).number d
    (match rq.dir with
    | .read => []
    | .write => (s.lane rq.lane).freeUnits (s.laneArea rq.lane).row.writeShare (unitsFor rq.length))

/-- The list of a lane that accepts a request. -/
theorem enlist_slots (rq : Request) (d : Decoded) (s : State) :
    ((enlist rq d s).lane rq.lane).slots = (s.lane rq.lane).slots ++ [s.slotOf rq d]
      ∧ ((enlist rq d s).lane rq.lane).session = (s.lane rq.lane).session
      ∧ ((enlist rq d s).lane rq.lane).issued = (s.lane rq.lane).issued
      ∧ ((enlist rq d s).lane rq.lane).stream = (s.lane rq.lane).stream := by
  unfold enlist State.slotOf
  cases rq.dir <;> simp

/-- The fields that the acceptance of a request leaves. -/
theorem enlist_frame (rq : Request) (d : Decoded) (s : State) :
    (enlist rq d s).agents = s.agents ∧ (enlist rq d s).port = s.port ∧ (enlist rq d s).link = s.link
      ∧ ∀ b, b ≠ (s.agent rq.lane).area → (enlist rq d s).area b = s.area b := by
  unfold enlist
  cases rq.dir
  · exact ⟨rfl, rfl, rfl, fun _ _ => rfl⟩
  · refine ⟨rfl, rfl, rfl, fun b hb => ?_⟩
    simp only [withStaging_area]
    rw [updArea_area_ne _ _ hb]
    rfl

/-- The laws of a lane that has accepted a request. -/
theorem LaneLaws.enlist {s : State} {rq : Request} (d : Decoded)
    (h : LaneLaws (s.agent rq.lane) (s.area (s.agent rq.lane).area) (s.lane rq.lane)) (ok : s.Accepts rq) :
    LaneLaws (s.agent rq.lane) ((enlist rq d s).area (s.agent rq.lane).area) ((enlist rq d s).lane rq.lane) := by
  have joined : (s.lane rq.lane).session ≠ .detached := by rw [ok.active]; decide
  obtain ⟨after, session, issued, _⟩ := enlist_slots rq d s
  obtain ⟨occupied, reserved, filled, writeShare, readShare⟩ := h.counts joined
  have stage := (newSlot_stage rq (s.lane rq.lane).number d
    (match rq.dir with
    | .read => []
    | .write => (s.lane rq.lane).freeUnits (s.laneArea rq.lane).row.writeShare (unitsFor rq.length))).1
  cases dir : rq.dir with
  | read =>
    have slot : s.slotOf rq d = newSlot rq (s.lane rq.lane).number d [] := by rw [State.slotOf, dir]
    have read : (newSlot rq (s.lane rq.lane).number d []).dir = .read := dir
    have held : (newSlot rq (s.lane rq.lane).number d []).held = [] := rfl
    have area : (Machine.enlist rq d s).area (s.agent rq.lane).area = s.area (s.agent rq.lane).area := by
      unfold Machine.enlist
      rw [dir]
      rfl
    have credit : ((Machine.enlist rq d s).lane rq.lane).credit = (s.lane rq.lane).credit := by
      unfold Machine.enlist
      rw [dir]
      simp
    rw [slot] at after
    refine h.append joined after ok.fresh session issued stage (by rw [area]) (by rw [held]; exact List.nodup_nil)
      (by rw [held]; exact fun _ hu => nomatch hu)
      ⟨(fun e => by rw [read] at e; cases e), (fun _ u hu => by rw [held] at hu; cases hu), fun _ _ => held⟩ ?_
    rw [area, credit, after]
    exact ⟨by simp [unitsHeld_append, unitsHeld_cons, held, occupied], by simp [unitsHeld_append, unitsHeld_cons, held, reserved],
      by simp [unitsHeld_append, unitsHeld_cons, held, filled], writeShare, readShare⟩
  | write =>
    have enough := ok.credit dir
    have length := h.freeWrite joined enough
    have slot : s.slotOf rq d = newSlot rq (s.lane rq.lane).number d
        ((s.lane rq.lane).freeUnits (s.laneArea rq.lane).row.writeShare (unitsFor rq.length)) := by
      rw [State.slotOf, dir]
    have write : (s.slotOf rq d).dir = .write := dir
    have units : (s.slotOf rq d).held.map (·.unit)
        = (s.lane rq.lane).freeUnits (s.area (s.agent rq.lane).area).row.writeShare (unitsFor rq.length) := by
      rw [slot]
      show (List.map _ _).map _ = _
      rw [List.map_map]
      exact List.map_id _
    have held : (s.slotOf rq d).held.length = unitsFor rq.length := by
      have := congrArg List.length units
      rwa [List.length_map, length] at this
    have free : ∀ u ∈ (s.slotOf rq d).held, u.unit ∈ (s.area (s.agent rq.lane).area).row.writeShare
        ∧ u.unit ∉ (s.lane rq.lane).heldUnits := fun u hu =>
      mem_freeUnits (units ▸ List.mem_map_of_mem hu)
    have area : (Machine.enlist rq d s).area (s.agent rq.lane).area
        = { s.area (s.agent rq.lane).area with
            writeOccupied := (s.area (s.agent rq.lane).area).writeOccupied + unitsFor rq.length } := by
      unfold Machine.enlist
      rw [dir]
      simp
    have credit : ((Machine.enlist rq d s).lane rq.lane).credit = (s.lane rq.lane).credit - unitsFor rq.length := by
      unfold Machine.enlist
      rw [dir]
      simp
    refine h.append joined after ok.fresh session issued (slot ▸ (newSlot_stage _ _ _ _).1) (by rw [area])
      (by rw [units]; exact freeUnits_nodup (writeShare_nodup _) _) (fun u hu => (free u hu).2)
      ⟨fun _ u hu => mem_writeShare.1 (free u hu).1, (fun e => by rw [write] at e; cases e),
        (fun e => by rw [write] at e; cases e)⟩ ?_
    rw [area, credit, after]
    refine ⟨?_, ?_, ?_, ?_, readShare⟩
    · simp [unitsHeld_append, unitsHeld_cons, write, held, occupied]
    · simp [unitsHeld_append, unitsHeld_cons, write, reserved]
    · simp [unitsHeld_append, unitsHeld_cons, write, filled]
    · show (s.area (s.agent rq.lane).area).writeOccupied + unitsFor rq.length
          + ((s.lane rq.lane).credit - unitsFor rq.length) ≤ (s.area (s.agent rq.lane).area).row.writeUnits
      omega

namespace AccountKept

theorem enlist {rq : Request} {s : State} (d : Decoded) (ok : s.Accepts rq) : AccountKept s (enlist rq d s) := by
  obtain ⟨after, session, _, stream⟩ := enlist_slots rq d s
  obtain ⟨agents, port, link, areas⟩ := enlist_frame rq d s
  have joined : (s.lane rq.lane).session ≠ .detached := by rw [ok.active]; decide
  refine of_parts (fun h => h.append ⟨agents, fun k hk => enlist_lane_ne rq d s hk, areas⟩ joined after session
    (IndexKept.enlist_xlat rq d s) port ((h.lane rq.lane).enlist d ok)) fun h => ?_
  exact h.of_lane (fun k hk => enlist_lane_ne rq d s hk) (by rw [link]) fun ok => ok.enlist stream after

end AccountKept

/-- The new slot is the only one of its tag, and neither ISSUED nor SENDING. -/
theorem enlist_calm {rq : Request} {s : State} (d : Decoded) (ok : s.Accepts rq) :
    (Machine.enlist rq d s).Calm rq.lane rq.tag := by
  intro q hq e
  rw [(enlist_slots rq d s).1] at hq
  rcases List.mem_append.1 hq with hq | hq
  · exact absurd (e ▸ List.mem_map_of_mem hq) ok.fresh
  · rw [List.mem_singleton.1 hq]
    exact newSlot_stage _ _ _ _

end Sys2Proof.Machine
end

section
/-! The accounts, eighth part: lookups at acceptance, the taking of indexes, and the end of a walk. -/

namespace Sys2Proof.Machine

/-! ### One piece changed -/

/-- The slot of this piece stands in its list, TRANSLATING, with the piece WAITING (R28). -/
def State.Stands (s : State) (p : PieceRef) : Prop := ∃ q ∈ (s.lane p.lane).slots, q.Waits p

theorem place_eq_iff {p r : PieceRef} : p.place = r.place ↔ p.upper = r.upper := by
  unfold PieceRef.place
  cases p.upper <;> cases r.upper <;> simp

theorem pieceRef_ext {p r : PieceRef} (lane : p.lane = r.lane) (tag : p.tag = r.tag) (upper : p.upper = r.upper) :
    p = r := by
  cases p; cases r; cases lane; cases tag; cases upper; rfl

/-- A slot with one of its pieces changed. -/
def Slot.modifyPiece (q : Slot) (p : PieceRef) (f : Piece → Piece) : Slot :=
  { q with pieces := q.pieces.modify p.place f }

theorem updPiece_eq (s : State) (p : PieceRef) (f : Piece → Piece) :
    s.updPiece p f = s.updSlot p.lane p.tag fun q => q.modifyPiece p f := rfl

theorem Slot.Waits.modifyPiece {q : Slot} {p r : PieceRef} {f : Piece → Piece} (w : q.Waits r)
    (lane : r.lane = p.lane) (tag : q.tag = p.tag) (ne : r ≠ p) : (q.modifyPiece p f).Waits r := by
  obtain ⟨tagged, stage, x, hx, waiting⟩ := w
  refine ⟨tagged, stage, x, ?_, waiting⟩
  have other : p.place ≠ r.place := fun e =>
    ne (pieceRef_ext lane (tagged.symm.trans tag) (place_eq_iff.1 e.symm))
  unfold Slot.modifyPiece
  simp only [List.getElem?_modify, if_neg other]
  simpa using hx

theorem Slot.Pends.modifyPiece {q : Slot} {p : PieceRef} {f : Piece → Piece} {i : MemId} {y : PieceRef × Dir}
    (w : q.Pends i y) (keeps : ∀ x, (f x).status = x.status ∧ (f x).memId = x.memId) : (q.modifyPiece p f).Pends i y := by
  obtain ⟨tagged, stage, dir, x, hx, pending, answers⟩ := w
  refine ⟨tagged, stage, dir, if p.place = y.1.place then f x else x, ?_, ?_, ?_⟩
  · unfold Slot.modifyPiece
    rw [List.getElem?_modify]
    have hx : q.pieces[y.1.place]? = some x := by simpa using hx
    rw [hx]
    simp
  · split
    · exact (keeps x).1.trans pending
    · exact pending
  · split
    · exact (keeps x).2.trans answers
    · exact answers

theorem stands_updPiece {s : State} {p r : PieceRef} {f : Piece → Piece} (h : s.Stands r) (ne : r ≠ p) :
    (s.updPiece p f).Stands r := by
  rw [updPiece_eq]
  unfold State.Stands at h ⊢
  by_cases e : r.lane = p.lane
  · rw [e] at h ⊢
    rw [updSlot_lane_self]
    exact exists_map_upd (fun q _ t w => w.modifyPiece e t ne) h
  · rw [updSlot_lane_ne s _ _ e]
    exact h

theorem CalmKept.updPiece (s : State) (p : PieceRef) (f : Piece → Piece) : CalmKept s (s.updPiece p f) :=
  CalmKept.updSlot s p.lane p.tag (fun _ => rfl) fun _ _ => rfl

/-- A piece that nobody waits for changes its translation. -/
theorem AccountKept.updPiece {s : State} {p : PieceRef} {f : Piece → Piece} (free : p ∉ s.allWaiters)
    (keeps : ∀ x, (f x).status = x.status ∧ (f x).memId = x.memId) : AccountKept s (s.updPiece p f) := by
  rw [updPiece_eq]
  refine of_parts (fun h => h.updSlot (fun _ => ⟨rfl, rfl, rfl⟩) (fun _ _ => ⟨Iff.rfl, id⟩) ?_ ?_) fun h =>
    h.updSlot (fun _ => rfl) (fun _ _ _ => id) fun _ _ _ => id
  · exact fun q found r hr lane w => w.modifyPiece lane (slot?_tag found) fun e => free (e ▸ hr)
  · exact fun q _ i y _ _ w => w.modifyPiece keeps

/-- A TRANSLATING slot with every piece DONE becomes QUEUED (R28). -/
theorem AccountKept.queueIfDone (l : Lane) (tag : Tag) (s : State) : AccountKept s (queueIfDone l tag s) := by
  unfold Machine.queueIfDone
  have cases_ : ∀ q : Slot, (if q.stage == .translating && q.pieces.all fun p => p.xlat == .done then
      { q with stage := .queued } else q) = q ∨ (q.stage = .translating ∧ (∀ x ∈ q.pieces, x.xlat = .done)
        ∧ (if q.stage == .translating && q.pieces.all fun p => p.xlat == .done then
          { q with stage := .queued } else q) = { q with stage := .queued }) := by
    intro q
    by_cases h : (q.stage == .translating && q.pieces.all fun p => p.xlat == .done) = true
    · rw [if_pos h]
      rw [Bool.and_eq_true, beq_iff_eq, List.all_eq_true] at h
      exact .inr ⟨h.1, fun x hx => by simpa using h.2 x hx, rfl⟩
    · rw [if_neg h]
      exact .inl rfl
  refine of_parts (fun h => h.updSlot (fun q => ?_) (fun q _ => ?_) (fun q _ p _ _ w => ?_) fun q _ i y _ _ w => ?_)
    fun h => h.updSlot (fun q => ?_) (fun q _ _ done => ?_) fun q _ _ sending => ?_
  · rcases cases_ q with e | ⟨_, _, e⟩ <;> rw [e] <;> exact ⟨rfl, rfl, rfl⟩
  · rcases cases_ q with e | ⟨t, _, e⟩ <;> rw [e]
    · exact ⟨Iff.rfl, id⟩
    · exact ⟨by rw [t]; simp, fun _ => .inl t⟩
  · rcases cases_ q with e | ⟨_, done, e⟩ <;> rw [e]
    · exact w
    · obtain ⟨_, _, x, hx, waiting⟩ := w
      rw [done x (List.mem_of_getElem? (by simpa using hx))] at waiting
      cases waiting
  · rcases cases_ q with e | ⟨t, _, e⟩ <;> rw [e]
    · exact w
    · have := w.2.1
      rw [t] at this
      cases this
  · rcases cases_ q with e | ⟨_, _, e⟩ <;> rw [e]
  · rcases cases_ q with e | ⟨t, _, e⟩ <;> rw [e]
    · exact done
    · rw [t] at done
      rcases done with d | d <;> cases d
  · rcases cases_ q with e | ⟨t, _, e⟩ <;> rw [e]
    · exact sending
    · rw [t] at sending
      cases sending

theorem CalmKept.queueIfDone (l : Lane) (tag : Tag) (s : State) : CalmKept s (queueIfDone l tag s) :=
  CalmKept.updSlot s l tag (fun q => by split <;> rfl) fun q e => by
    revert e
    split
    · exact fun e => by rcases e with e | e <;> cases e
    · exact fun _ => rfl

/-! ### The translation unit (R73, R76) -/

/-- Lists of the translation unit rearranged: no account of the lanes looks there. -/
theorem AccountKept.of_xlat {s t : State} (lanes : t.lanes = s.lanes) (agents : t.agents = s.agents)
    (areas : t.areas = s.areas) (port : t.port = s.port) (link : t.link.tx = s.link.tx) (indexes : IndexLaw s → IndexLaw t)
    (waiters : t.allWaiters.Subperm s.allWaiters) (waiting : (∀ e ∈ s.xlat.waiting, e.waiters ≠ []) →
      ∀ e ∈ t.xlat.waiting, e.waiters ≠ []) : AccountKept s t := by
  have lane : ∀ l, t.lane l = s.lane l := fun l => by simp only [State.lane, lanes]
  have agent : ∀ l, t.agent l = s.agent l := fun l => by simp only [State.agent, agents]
  have area : ∀ a, t.area a = s.area a := fun a => by simp only [State.area, areas]
  refine of_parts (fun h => ⟨fun l => ?_, fun l k => ?_, fun a none_ => ?_, indexes h.indexes, ?_, fun i y hy => ?_⟩)
    fun h => h.congr lanes link
  · rw [lane, agent, area]; exact h.lane l
  · rw [agent, agent]; exact h.apart l k
  · rw [area]
    exact h.idle a fun l hl => by
      have := none_ l (by rw [lane]; exact hl)
      rwa [agent] at this
  · obtain ⟨once, stand, wait⟩ := h.waiters
    refine ⟨?_, fun p hp => ?_, waiting wait⟩
    · obtain ⟨xs, perm, sub⟩ := waiters
      exact perm.nodup_iff.1 (once.sublist sub)
    · rw [lane]
      exact stand p (waiters.subset hp)
  · rw [lane]
    exact h.ids i y (by simpa only [State.memId, port] using hy)

theorem AccountKept.takeIndexes (s : State) : AccountKept s (takeIndexes s) := by
  refine AccountKept.forEach (fun w s => ?_) allWalks s
  have fields : (takeIndex w s).lanes = s.lanes ∧ (takeIndex w s).agents = s.agents ∧ (takeIndex w s).areas = s.areas
      ∧ (takeIndex w s).port = s.port ∧ (takeIndex w s).link = s.link := by
    unfold takeIndex
    split <;> exact ⟨rfl, rfl, rfl, rfl, rfl⟩
  obtain ⟨lanes, agents, areas, port, link⟩ := fields
  obtain ⟨indexes, waiters, waiting⟩ := takeIndex_perm w s
  exact of_xlat lanes agents areas port (by rw [link]) (IndexKept.of_perm indexes) waiters.subperm
    fun wait e he => wait e (waiting.subset he)

/-- A WAITING piece that waits nowhere yet joins the waiters of an index that the lookup missed (R73). -/
theorem AccountKept.joinWaiters {s : State} {p : PieceRef} {index : Nat} (stands : s.Stands p)
    (free : p ∉ s.allWaiters) (miss : s.lookUp index = .miss) : AccountKept s (joinWaiters index p s) := by
  intro h
  have fields : (Machine.joinWaiters index p s).lanes = s.lanes ∧ (Machine.joinWaiters index p s).agents = s.agents
      ∧ (Machine.joinWaiters index p s).areas = s.areas ∧ (Machine.joinWaiters index p s).port = s.port
      ∧ (Machine.joinWaiters index p s).link = s.link := by
    unfold Machine.joinWaiters
    split <;> exact ⟨rfl, rfl, rfl, rfl, rfl⟩
  obtain ⟨lanes, agents, areas, port, link⟩ := fields
  obtain ⟨indexes, waiters, waiting⟩ := joinWaiters_lists index p h.indexes (IndexKept.lookUp_miss miss)
  have lane : ∀ l, (Machine.joinWaiters index p s).lane l = s.lane l := fun l => by simp only [State.lane, lanes]
  have agent : ∀ l, (Machine.joinWaiters index p s).agent l = s.agent l := fun l => by simp only [State.agent, agents]
  have area : ∀ a, (Machine.joinWaiters index p s).area a = s.area a := fun a => by simp only [State.area, areas]
  have base := h.base
  refine BaseLaw.account ⟨fun l => ?_, fun l k => ?_, fun a none_ => ?_, indexes, ?_, fun i y hy => ?_⟩
    (h.streams.congr lanes (by rw [link]))
  · rw [lane, agent, area]; exact base.lane l
  · rw [agent, agent]; exact base.apart l k
  · rw [area]
    exact base.idle a fun l hl => by
      have := none_ l (by rw [lane]; exact hl)
      rwa [agent] at this
  · obtain ⟨once, stand, wait⟩ := h.waiters
    refine ⟨waiters.nodup_iff.2 (List.nodup_cons.2 ⟨free, once⟩), fun r hr => ?_, waiting wait⟩
    rw [lane]
    rcases List.mem_cons.1 (waiters.subset hr) with rfl | hr
    · exact stands
    · exact stand r hr
  · rw [lane]
    exact base.ids i y (by simpa only [State.memId, port] using hy)

/-! ### Lookups at acceptance (R71 to R74) -/

/-- The lookup of one piece keeps the accounts, and the pieces that are still to be looked up. -/
theorem lookPiece_account {l : Lane} {q : Slot} {upper : Bool} {index : Nat} {k : Lookups} (h : AccountLaw k.state)
    (stands : k.state.Stands ⟨l, q.tag, upper⟩) (free : (⟨l, q.tag, upper⟩ : PieceRef) ∉ k.state.allWaiters) :
    AccountLaw (lookPiece l q upper index k).state
      ∧ ∀ r : PieceRef, r ≠ ⟨l, q.tag, upper⟩ → k.state.Stands r → r ∉ k.state.allWaiters →
        (lookPiece l q upper index k).state.Stands r ∧ r ∉ (lookPiece l q upper index k).state.allWaiters := by
  have piece : ∀ f : Piece → Piece, (∀ x, (f x).status = x.status ∧ (f x).memId = x.memId) →
      AccountLaw (k.state.updPiece ⟨l, q.tag, upper⟩ f) ∧ ∀ r : PieceRef, r ≠ ⟨l, q.tag, upper⟩ → k.state.Stands r →
        r ∉ k.state.allWaiters → (k.state.updPiece ⟨l, q.tag, upper⟩ f).Stands r
          ∧ r ∉ (k.state.updPiece ⟨l, q.tag, upper⟩ f).allWaiters := fun f keeps =>
    ⟨AccountKept.updPiece free keeps h, fun r ne stands free => ⟨stands_updPiece stands ne, free⟩⟩
  unfold lookPiece
  split
  · exact piece _ fun _ => ⟨rfl, rfl⟩
  · split
    · exact piece _ fun _ => ⟨rfl, rfl⟩
    · exact piece _ fun _ => ⟨rfl, rfl⟩
  · rename_i miss
    refine ⟨AccountKept.joinWaiters stands free miss h, fun r ne stand absent => ⟨?_, fun m => ?_⟩⟩
    · have lanes : (joinWaiters index ⟨l, q.tag, upper⟩ k.state).lane r.lane = k.state.lane r.lane := by
        unfold joinWaiters
        split <;> rfl
      unfold State.Stands
      rw [lanes]
      exact stand
    · obtain ⟨_, waiters, _⟩ := joinWaiters_lists index ⟨l, q.tag, upper⟩ h.indexes (IndexKept.lookUp_miss miss)
      rcases List.mem_cons.1 (waiters.subset m) with e | m
      · exact ne e
      · exact absent m

theorem CalmKept.lookPiece (l : Lane) (q : Slot) (upper : Bool) (index : Nat) (k : Lookups) :
    CalmKept k.state (lookPiece l q upper index k).state := by
  unfold Machine.lookPiece
  split
  · exact updPiece _ _ _
  · split
    · exact updPiece _ _ _
    · exact updPiece _ _ _
  · refine of_slots fun k => ?_
    unfold joinWaiters
    split <;> rfl

/-- A slot's pieces have different places. -/
theorem zip_uppers_nodup : ∀ ps : List Piece, ((ps.zip [false, true]).map (·.2)).Nodup
  | [] => List.nodup_nil
  | [_] => by simp
  | _ :: _ :: _ => by simp

/-- Lookups of several pieces, each WAITING and waiting nowhere. -/
theorem lookPieces_account {l : Lane} {q : Slot} : ∀ (xs : List (Piece × Bool)) {k : Lookups}, AccountLaw k.state →
    (xs.map (·.2)).Nodup → (∀ x ∈ xs, k.state.Stands ⟨l, q.tag, x.2⟩ ∧ ⟨l, q.tag, x.2⟩ ∉ k.state.allWaiters) →
    AccountLaw (xs.foldl (fun k x => lookPiece l q x.2 (x.1.entry.getD 0) k) k).state
      ∧ CalmKept k.state (xs.foldl (fun k x => lookPiece l q x.2 (x.1.entry.getD 0) k) k).state
  | [], _, h, _, _ => ⟨h, CalmKept.refl _⟩
  | x :: xs, k, h, once, todo => by
    obtain ⟨stands, free⟩ := todo x (List.mem_cons_self ..)
    obtain ⟨next, others⟩ := lookPiece_account (index := x.1.entry.getD 0) h stands free
    rw [List.map_cons, List.nodup_cons] at once
    obtain ⟨law, calm⟩ := lookPieces_account xs next once.2 fun y hy => by
      obtain ⟨stand, absent⟩ := todo y (List.mem_cons_of_mem _ hy)
      refine others _ (fun e => once.1 ?_) stand absent
      have same : y.2 = x.2 := congrArg PieceRef.upper e
      exact same ▸ List.mem_map_of_mem hy
    exact ⟨law, (CalmKept.lookPiece l q x.2 _ k).trans calm⟩

namespace AccountKept

theorem suspendLane (l : Lane) (s : State) : AccountKept s (suspendLane l s) := by
  unfold Machine.suspendLane
  split
  · rename_i active
    have active : (s.lane l).session = .active := by simpa using active
    refine of_parts (fun h => h.updRecord (Iff.intro (fun e => by cases e) fun e => ?_) rfl rfl rfl) fun h =>
      h.of_lane (fun _ hk => updLane_lane_ne s _ hk) rfl fun ok => by rw [updLane_lane_self]; exact ok.congr rfl rfl
    rw [active] at e
    cases e
  · exact refl s

theorem report (rep : Report) (s : State) : AccountKept s (report rep s) := by
  unfold Machine.report
  dsimp only
  split
  · exact (of_same rfl rfl rfl rfl rfl rfl : AccountKept s (s.withFaults _)).trans (suspendLane _ _)
  · exact of_same rfl rfl rfl rfl rfl rfl

theorem reportAll (reps : List Report) (s : State) : AccountKept s (reportAll reps s) := forEach report reps s

/-- The lookups of an accepted slot whose pieces all wait and are nowhere yet (R64, R74). -/
theorem translateSlot {l : Lane} {q : Slot} {s : State} (calm : s.Calm l q.tag)
    (todo : ∀ x ∈ q.pieces.zip [false, true], s.Stands ⟨l, q.tag, x.2⟩ ∧ ⟨l, q.tag, x.2⟩ ∉ s.allWaiters) :
    AccountKept s (translateSlot l q s) := by
  intro h
  obtain ⟨law, kept⟩ := lookPieces_account (k := ⟨s, none, []⟩) _ h (zip_uppers_nodup _) todo
  have law : AccountLaw (lookPieces l q s).state := law
  have kept : CalmKept s (lookPieces l q s).state := kept
  unfold Machine.translateSlot
  dsimp only
  refine reportAll _ _ (takeIndexes _ ?_)
  split
  · exact completeSlot _ (kept.calm calm) law
  · exact queueIfDone _ _ _ law

end AccountKept

/-- The pieces of a TRANSLATED request wait (R62). -/
theorem decode_translated {s : State} {rq : Request} {c : Capture} {ps : List Piece}
    (h : s.decode rq = .translated c ps) : ∀ x ∈ ps, x.xlat = .waiting := by
  unfold State.decode at h
  split at h; · cases h
  dsimp only at h
  split at h; · cases h
  split at h; · cases h
  unfold decodeByKind at h
  dsimp only at h
  split at h <;> cases h
  intro x hx
  unfold translatedPieces at hx
  split at hx
  · rw [List.mem_singleton.1 hx]; rfl
  · rcases List.mem_cons.1 hx with rfl | hx
    · rfl
    · rw [List.mem_singleton.1 hx]; rfl

/-- The pieces of a slot with their places (R62). -/
theorem mem_zip_uppers {ps : List Piece} {x : Piece} {u : Bool} (h : (x, u) ∈ ps.zip [false, true]) (l : Lane) (tag : Tag) :
    ps[(⟨l, tag, u⟩ : PieceRef).place]? = some x := by
  match ps, h with
  | [a], h =>
    simp only [List.zip_cons_cons, List.zip_nil_left, List.mem_singleton, Prod.mk.injEq] at h
    obtain ⟨rfl, rfl⟩ := h
    rfl
  | a :: b :: ps, h =>
    simp only [List.zip_cons_cons, List.zip_nil_right, List.mem_cons, Prod.mk.injEq, List.not_mem_nil, or_false] at h
    rcases h with ⟨rfl, rfl⟩ | ⟨rfl, rfl⟩ <;> rfl

theorem AccountKept.accept {rq : Request} {s : State} (taken : s.refusal rq = none) : AccountKept s (accept rq s) := by
  intro h
  have ok := accepts_of_refusal taken
  have calm : (Machine.enlist rq (s.decode rq) s).Calm rq.lane rq.tag := enlist_calm _ ok
  have law : AccountLaw (Machine.enlist rq (s.decode rq) s) := AccountKept.enlist _ ok h
  unfold Machine.accept
  dsimp only
  split
  · exact report _ _ (completeSlot _ calm law)
  · exact completeSlot _ calm law
  · exact law
  · rename_i c ps decoded
    have asked : (newSlot rq (s.lane rq.lane).number (s.decode rq) []).pieces = ps := by rw [decoded]; rfl
    refine translateSlot calm (fun x hx => ?_) law
    rw [asked] at hx
    refine ⟨?_, fun waits => ?_⟩
    · refine ⟨s.slotOf rq (s.decode rq), ?_, rfl, ?_, x.1, ?_, ?_⟩
      · rw [(enlist_slots rq _ s).1]
        exact List.mem_append_right _ (List.mem_singleton_self _)
      · rw [decoded]; rfl
      · have pieces : (s.slotOf rq (s.decode rq)).pieces = ps := by rw [decoded]; rfl
        have at_ := mem_zip_uppers hx rq.lane rq.tag
        rw [← pieces] at at_
        exact Option.mem_toList.2 at_
      · exact decode_translated decoded x.1 (List.of_mem_zip hx).1
    · have stood : s.Stands ⟨rq.lane, rq.tag, x.2⟩ :=
        h.waiters.2.1 _ (by rwa [allWaiters_congr (IndexKept.enlist_xlat rq _ s)] at waits)
      obtain ⟨q, hq, w⟩ := stood
      have tagged : q.tag = rq.tag := w.1
      exact ok.fresh (tagged ▸ List.mem_map_of_mem hq)

/-! ### The end of a walk (R76 to R80) -/

/-- A waiter whose walk has let it go: it waits nowhere, and its slot is neither ISSUED nor SENDING. -/
structure State.LetGo (s : State) (p : PieceRef) : Prop where
  free : p ∉ s.allWaiters
  calm : s.Calm p.lane p.tag

theorem State.LetGo.kept {s t : State} {p : PieceRef} (h : s.LetGo p) (waiters : ∀ r ∈ t.allWaiters, r ∈ s.allWaiters)
    (calm : CalmKept s t) : t.LetGo p := ⟨fun m => h.free (waiters p m), calm.calm h.calm⟩

theorem completeSlot_allWaiters (l : Lane) (tag : Tag) (st : RespStatus) (s : State) :
    ∀ p ∈ (completeSlot l tag st s).allWaiters, p ∈ s.allWaiters := by
  cases found : s.slot? l tag with
  | none => unfold completeSlot; rw [found]; exact fun p hp => hp
  | some q =>
    obtain ⟨_, _, _, _, _, xlat, _⟩ := completeSlot_rest st found
    intro p hp
    rw [allWaiters_congr xlat] at hp
    exact (mem_dropWaiters.1 hp).1

namespace AccountKept

theorem translatePiece {p : PieceRef} {s : State} (free : p ∉ s.allWaiters) (a : MemAddr) :
    AccountKept s (translatePiece p a s) := updPiece free fun _ => ⟨rfl, rfl⟩

theorem failWaiter {st : RespStatus} {p : PieceRef} {s : State} (letGo : s.LetGo p) :
    AccountKept s (failWaiter st p s) :=
  (updPiece (f := fun x => { x with xlat := .failed }) letGo.free fun _ => ⟨rfl, rfl⟩).trans
    (completeSlot st ((CalmKept.updPiece s p _).calm letGo.calm))

theorem failWaiter_letGo (st : RespStatus) (p : PieceRef) {r : PieceRef} {s : State} (h : s.LetGo r) :
    (Machine.failWaiter st p s).LetGo r :=
  h.kept (completeSlot_allWaiters p.lane p.tag st (failPiece p s))
    ((CalmKept.updPiece s p _).trans (CalmKept.completeSlot _ _ _ _))

theorem failWaiters (st : RespStatus) : ∀ (ws : List PieceRef) {s : State}, (∀ p ∈ ws, s.LetGo p) →
    AccountKept s (Machine.forEach ws (Machine.failWaiter st) s)
  | [], _, _ => refl _
  | p :: ws, _, letGo =>
    (failWaiter (letGo p (List.mem_cons_self ..))).trans
      (failWaiters st ws fun r hr => failWaiter_letGo st p (letGo r (List.mem_cons_of_mem _ hr)))

theorem checkWaiter {e : CacheEntry} {p : PieceRef} {k : State × List Report} (letGo : k.1.LetGo p) :
    AccountKept k.1 (checkWaiter e p k).1 := by
  unfold Machine.checkWaiter
  split
  · exact refl _
  · split
    · exact (translatePiece letGo.free _).trans (queueIfDone _ _ _)
    · exact failWaiter letGo

theorem checkWaiter_letGo (e : CacheEntry) (p : PieceRef) {r : PieceRef} {k : State × List Report} (h : k.1.LetGo r) :
    (Machine.checkWaiter e p k).1.LetGo r := by
  unfold Machine.checkWaiter
  split
  · exact h
  · split
    · exact h.kept (fun _ hp => hp) ((CalmKept.updPiece k.1 p _).trans (CalmKept.queueIfDone _ _ _))
    · exact failWaiter_letGo _ p h

theorem checkWaiters (e : CacheEntry) : ∀ (ws : List PieceRef) {k : State × List Report}, (∀ p ∈ ws, k.1.LetGo p) →
    AccountKept k.1 (ws.foldl (fun k p => Machine.checkWaiter e p k) k).1
  | [], _, _ => refl _
  | p :: ws, _, letGo =>
    (checkWaiter (letGo p (List.mem_cons_self ..))).trans
      (checkWaiters e ws fun r hr => checkWaiter_letGo e p (letGo r (List.mem_cons_of_mem _ hr)))

/-- A walk slot made FREE lets its waiters go. -/
theorem setWalk_letGo {s : State} {w : WalkNo} {x : Walk} (h : AccountLaw s) (walk : s.walk w = some x) {t : State}
    (lanes : t.lanes = s.lanes) (waiters : t.allWaiters = (s.setWalk w none).allWaiters) :
    ∀ p ∈ x.waiters, t.LetGo p := by
  obtain ⟨once, stand, _⟩ := h.waiters
  have perm := setWalk_none_waiters walk
  have apart := List.nodup_append'.1 (perm.nodup_iff.1 once)
  intro p hp
  refine ⟨fun m => apart.2.2 hp (waiters ▸ m), fun q hq e => ?_⟩
  obtain ⟨y, hy, tag, translating, _⟩ := stand p (perm.symm.subset (List.mem_append_left _ hp))
  rw [show t.lane p.lane = s.lane p.lane by simp only [State.lane, lanes]] at hq
  rw [List.inj_on_of_nodup_map (h.tags p.lane) hq hy (e.trans tag.symm), translating]
  exact ⟨nofun, nofun⟩

theorem setWalk_none_subperm {s : State} {w : WalkNo} {x : Walk} (walk : s.walk w = some x) :
    (s.setWalk w none).allWaiters.Subperm s.allWaiters :=
  (List.sublist_append_right _ _).subperm.trans (setWalk_none_waiters walk).symm.subperm

theorem setWalk_none {s : State} {w : WalkNo} {x : Walk} (walk : s.walk w = some x) :
    AccountKept s (s.setWalk w none) := by
  exact of_xlat rfl rfl rfl rfl rfl (IndexKept.of_sublist (setWalk_none_indexes s w)) (setWalk_none_subperm walk) id

theorem failWalk {w : WalkNo} {x : Walk} {s : State} (walk : s.walk w = some x) :
    AccountKept s (failWalk w x.waiters s) := fun h =>
  takeIndexes _ (failWaiters _ _ (setWalk_letGo h walk rfl rfl) (setWalk_none walk h))

theorem setWalk_same {s : State} {w : WalkNo} {x y : Walk} (walk : s.walk w = some x) (index : y.index = x.index)
    (waiters : y.waiters = x.waiters) : AccountKept s (s.setWalk w (some y)) := by
  obtain ⟨indexes, same⟩ := Machine.setWalk_same walk index waiters
  exact of_xlat rfl rfl rfl rfl rfl (IndexKept.of_perm (by rw [indexes])) (by rw [same]) id

/-- A walk slot made FREE, and its entry installed (R80). -/
theorem installed {s : State} {w : WalkNo} {x : Walk} {e : CacheEntry} (walk : s.walk w = some x)
    (index : e.index = x.index) :
    AccountKept s ((s.setWalk w none).withXlat fun t => { t with cache := install e t.cache }) := by
  refine of_xlat rfl rfl rfl rfl rfl (install_indexes walk index) ?_ id
  show (s.setWalk w none).allWaiters.Subperm s.allWaiters
  exact setWalk_none_subperm walk

theorem walkOutcome (w : WalkNo) (o : Outcome) (value : Beat) (address : MemAddr) (s : State) :
    AccountKept s (walkOutcome w o value address s).1 := by
  unfold Machine.walkOutcome
  split
  · exact refl s
  · rename_i x walk
    split
    · exact setWalk_same walk rfl rfl
    · split
      · exact failWalk walk
      · split
        · exact failWalk walk
        · rename_i e entry
          intro h
          exact takeIndexes _ (checkWaiters e _ (setWalk_letGo h walk rfl rfl)
            (installed walk (IndexKept.entryOf_index entry) h))

end AccountKept

end Sys2Proof.Machine
end

section
/-! The accounts, ninth part: outcomes of memory transactions, and grants. -/

namespace Sys2Proof.Machine

/-- No id answers to this piece (R121). -/
def State.Unanswered (s : State) (p : PieceRef) : Prop := ∀ i, ∀ y ∈ (s.memId i).piece?.toList, y.1 ≠ p

theorem Slot.Pends.modifyOther {q : Slot} {p : PieceRef} {f : Piece → Piece} {i : MemId} {y : PieceRef × Dir}
    (w : q.Pends i y) (lane : y.1.lane = p.lane) (tag : q.tag = p.tag) (ne : y.1 ≠ p) : (q.modifyPiece p f).Pends i y := by
  obtain ⟨tagged, stage, dir, x, hx, pending⟩ := w
  refine ⟨tagged, stage, dir, x, ?_, pending⟩
  have other : p.place ≠ y.1.place := fun e =>
    ne (pieceRef_ext lane (tagged.symm.trans tag) (place_eq_iff.1 e.symm))
  unfold Slot.modifyPiece
  simp only [List.getElem?_modify, if_neg other]
  simpa using hx

theorem Slot.Waits.modifyKept {q : Slot} {p r : PieceRef} {f : Piece → Piece} (w : q.Waits r)
    (keeps : ∀ x, (f x).xlat = x.xlat) : (q.modifyPiece p f).Waits r := by
  obtain ⟨tagged, stage, x, hx, waiting⟩ := w
  refine ⟨tagged, stage, if p.place = r.place then f x else x, ?_, ?_⟩
  · have hx : q.pieces[r.place]? = some x := by simpa using hx
    unfold Slot.modifyPiece
    rw [List.getElem?_modify, hx]
    simp
  · split
    · exact (keeps x).trans waiting
    · exact waiting

namespace AccountKept

/-- A change where no account looks; an id may change but for the piece it answers to. -/
theorem of_ids {s t : State} (lanes : t.lanes = s.lanes) (agents : t.agents = s.agents) (areas : t.areas = s.areas)
    (xlat : t.xlat = s.xlat) (ids : ∀ i, (t.memId i).piece? = (s.memId i).piece?) (link : t.link.tx = s.link.tx) :
    AccountKept s t :=
  of_parts
    (fun h => h.congr_lanes agents areas xlat ids (fun l => by simp only [State.lane, lanes, and_self]))
    fun h => h.congr lanes link

/-- A piece that no id answers to takes a status and an id (R31, R123). -/
theorem statusPiece {s : State} {p : PieceRef} {f : Piece → Piece} (free : s.Unanswered p)
    (keeps : ∀ x, (f x).xlat = x.xlat) : AccountKept s (s.updPiece p f) := by
  rw [updPiece_eq]
  refine of_parts (fun h => h.updSlot (fun _ => ⟨rfl, rfl, rfl⟩) (fun _ _ => ⟨Iff.rfl, id⟩) ?_ ?_) fun h =>
    h.updSlot (fun _ => rfl) (fun _ _ _ => id) fun _ _ _ => id
  · exact fun q _ r _ _ w => w.modifyKept keeps
  · exact fun q found i y hy lane w => w.modifyOther lane (slot?_tag found) (free i y hy)

/-- An id that answers to no piece any more, or to one that pends under it. -/
theorem setId {s : State} {i : MemId} {x : IdState}
    (stands : ∀ y ∈ x.piece?.toList, ∃ q ∈ (s.lane y.1.lane).slots, q.Pends i y) : AccountKept s (s.setId i x) :=
  of_parts
    (fun h => ⟨h.lane, h.apart, h.idle, h.indexes, h.waiters, fun j y hy => by
      by_cases e : j = i
      · subst e
        rw [setId_memId_self] at hy
        exact stands y hy
      · rw [setId_memId_ne s x e] at hy
        exact h.ids j y hy⟩)
    fun h => h

theorem setId_free {s : State} {i : MemId} {x : IdState} (none_ : x.piece? = none) : AccountKept s (s.setId i x) :=
  setId (by rw [none_]; exact fun _ hy => nomatch hy)

theorem useFree (n : Nat) (s : State) : AccountKept s (s.useFree n) := of_same rfl rfl rfl rfl rfl rfl

/-! ### Outcomes (R31, R41, R96) -/

theorem fillUnits_units (start length : Nat) : ∀ (k : Nat) (us : List HeldUnit),
    (fillUnits start length k us).map (·.unit) = us.map (·.unit)
  | _, [] => rfl
  | k, u :: us => by rw [fillUnits, List.map_cons, List.map_cons, fillUnits_units start length (k + 1) us]

theorem fillUnits_filled (start length : Nat) : ∀ (k : Nat) (us : List HeldUnit),
    (us.filter (·.filled)).length ≤ ((fillUnits start length k us).filter (·.filled)).length
  | _, [] => Nat.le_refl _
  | k, u :: us => by
    have ih := fillUnits_filled start length (k + 1) us
    rw [fillUnits]
    cases h : u.filled with
    | true => simpa [h] using ih
    | false =>
      cases unitTouched start length k with
      | true => simp [h]; omega
      | false => simpa [h] using ih


end AccountKept

/-- A READ's slot with other units of the read share, and the counts of its area with it (R95, R96). -/
theorem BaseLaw.setHeld {s t : State} (h : BaseLaw s) {l : Lane} {tag : Tag} {q : Slot} {held : List HeldUnit}
    (found : s.slot? l tag = some q) (read : q.dir = .read) (stage : q.stage = .issued) (one : OneLane l s t)
    (lane : t.lane l = (s.lane l).updSlot tag fun q => { q with held := held }) (xlat : t.xlat = s.xlat)
    (port : t.port = s.port) (once : (held.map (·.unit)).Nodup)
    (units : ∀ u ∈ held, u.unit ∈ (s.area (s.agent l).area).row.readShare ∧ u.unit ∉ (s.lane l).heldUnits
      ∨ u.unit ∈ q.held.map (·.unit))
    (row : (t.area (s.agent l).area).row = (s.area (s.agent l).area).row)
    (occupied : (t.area (s.agent l).area).writeOccupied = (s.area (s.agent l).area).writeOccupied)
    (reserved : (t.area (s.agent l).area).readReserved + (q.held.filter fun u => !u.filled).length
      = (s.area (s.agent l).area).readReserved + (held.filter fun u => !u.filled).length)
    (filled : (t.area (s.agent l).area).readFilled + (q.held.filter (·.filled)).length
      = (s.area (s.agent l).area).readFilled + (held.filter (·.filled)).length)
    (room : (t.area (s.agent l).area).readReserved + (t.area (s.agent l).area).readFilled
      ≤ (s.area (s.agent l).area).row.readUnits) : BaseLaw t := by
  have joined := h.joined_of_slot? found
  have tagged := slot?_tag found
  subst tagged
  obtain ⟨xs, ys, before, upd, _⟩ := split_of_mem (h.lane l).tags (slot?_mem found)
  have after : (t.lane l).slots = xs ++ { q with held := held } :: ys := by rw [lane]; exact upd _
  have share := (h.lane l).shares q (slot?_mem found)
  have counts := (h.lane l).counts joined
  refine h.of_lane one joined ?_ (by rw [lane]; exact joined) (h.indexes.congr xlat) ?_ ?_
  · refine (h.lane l).replace joined before after rfl (by rw [lane]; rfl)
      (by rw [lane]; simp only [issuedIn_singleton]; rfl) (by rw [lane]; exact (h.lane l).issuedLe) row ?_
      ⟨fun e => absurd (e.symm.trans read) nofun, fun _ u hu => ?_, fun _ e => ?_⟩ ?_
    · have old := (h.lane l).units
      rw [before, unitsOf_append, unitsOf_cons] at old
      rw [after, unitsOf_append, unitsOf_cons]
      have heldUnits : (s.lane l).heldUnits = unitsOf xs ++ (q.held.map (·.unit) ++ unitsOf ys) := by
        show unitsOf (s.lane l).slots = _
        rw [before, unitsOf_append, unitsOf_cons]
      rw [List.nodup_append', List.nodup_append'] at old ⊢
      obtain ⟨left, ⟨_, right, qy⟩, apart⟩ := old
      have fresh : ∀ u ∈ held.map (·.unit), u ∉ unitsOf xs ∧ u ∉ unitsOf ys := by
        intro u hu
        obtain ⟨x, hx, rfl⟩ := List.mem_map.1 hu
        rcases units x hx with ⟨_, free⟩ | old
        · rw [heldUnits, List.mem_append, List.mem_append] at free
          push Not at free
          exact ⟨free.1, free.2.2⟩
        · exact ⟨fun m => apart m (List.mem_append_left _ old), fun m => qy old m⟩
      refine ⟨left, ⟨once, right, fun u hu m => (fresh u hu).2 m⟩, fun u hu m => ?_⟩
      rcases List.mem_append.1 m with m | m
      · exact (fresh u m).1 hu
      · exact apart hu (List.mem_append_right _ m)
    · rcases units u hu with ⟨inShare, _⟩ | old
      · exact mem_readShare.1 inShare
      · obtain ⟨x, hx, e⟩ := List.mem_map.1 old
        exact e ▸ share.read read x hx
    · have e : q.stage = .translating ∨ q.stage = .queued := e
      rw [stage] at e
      rcases e with e | e <;> cases e
    · obtain ⟨occ, res, fil, writeShare, _⟩ := counts
      rw [before] at occ res fil
      rw [after, show (t.lane l).credit = (s.lane l).credit by rw [lane]; rfl]
      simp only [unitsHeld_append, unitsHeld_cons, read, reduceCtorEq, if_true, if_false] at occ res fil
      constructor <;> simp only [unitsHeld_append, unitsHeld_cons, read, reduceCtorEq, if_true, if_false, row] <;> omega
  · refine h.waiters.of_lane xlat one.lanes fun p hp e stands => ?_
    rw [lane]
    exact exists_map_upd (fun _ _ _ w => w) stands
  · refine h.ids.of_lane one.lanes (fun i y hy => by simpa only [State.memId, port] using hy) fun i y hy e stands => ?_
    rw [lane]
    exact exists_map_upd (fun _ _ _ w => w) stands

/-- The streams where one slot holds other units. -/
theorem StreamLaw.setHeld {s t : State} (h : StreamLaw s) {l : Lane} {tag : Tag} {held : List HeldUnit}
    (lanes : ∀ k, k ≠ l → t.lane k = s.lane k)
    (lane : t.lane l = (s.lane l).updSlot tag fun q => { q with held := held }) (link : t.link.tx = s.link.tx) :
    StreamLaw t :=
  (h.updSlot (l := l) (tag := tag) (f := fun q => { q with held := held }) (fun _ => rfl) (fun _ _ _ => id)
    fun _ _ _ => id).of_lane (l := l) (fun k hk => by rw [lanes k hk, updSlot_lane_ne s tag _ hk]) link
    (by rw [lane, updSlot_lane_self]; exact id)

namespace AccountKept

theorem fillPiece {l : Lane} {tag : Tag} (upper : Bool) (masks : List (BitVec 8)) (beats : List Beat) {s : State}
    (read : ∀ q, s.slot? l tag = some q → q.dir = .read ∧ q.stage = .issued) :
    AccountKept s (fillPiece l tag upper masks beats s) := by
  unfold Machine.fillPiece
  split
  · exact refl s
  · rename_i q found
    split
    · exact refl s
    · rename_i p piece
      dsimp only
      have units := fillUnits_units (q.pieceStart upper) p.length 0 q.held
      have more := fillUnits_filled (q.pieceStart upper) p.length 0 q.held
      have length := congrArg List.length units
      rw [List.length_map, List.length_map] at length
      generalize fillUnits (q.pieceStart upper) p.length 0 q.held = held at units more length ⊢
      have split := filter_not_length (·.filled) q.held
      have split' := filter_not_length (·.filled) held
      obtain ⟨reads, issued⟩ := read q found
      refine of_parts (fun h => ?_) fun h => h.setHeld (l := l) (tag := tag) (held := held)
        (fun k hk => by simp [updSlot_lane_ne s tag _ hk]) (by simp) rfl
      have joined := h.joined_of_slot? found
      obtain ⟨_, reserved, filled, _, room⟩ := (h.lane l).counts joined
      obtain ⟨xs, ys, before, _⟩ := split_of_mem (h.lane l).tags (slot?_mem found)
      rw [before] at reserved filled
      simp only [unitsHeld_append, unitsHeld_cons, reads, if_true] at reserved filled
      refine h.setHeld (held := held) found reads issued
        ⟨rfl, fun k hk => by simp [updSlot_lane_ne s tag _ hk], fun b hb => updArea_area_ne _ _ hb⟩ (by simp) rfl rfl ?_
        (fun u hu => .inr (units ▸ List.mem_map_of_mem hu)) ?_ ?_ ?_ ?_ ?_
      · rw [units]
        refine (h.lane l).units.sublist ?_
        rw [before, unitsOf_append, unitsOf_cons]
        exact (List.sublist_append_left _ _).trans (List.sublist_append_right _ _)
      all_goals
        simp only [updArea_area_self, withStaging_area, State.updSlot, updLane_area]
      all_goals omega

theorem completeSlot_quiet {l : Lane} {tag : Tag} {s : State} (st : RespStatus) (quiet : s.Quiet l tag)
    (still : ∀ q ∈ (s.lane l).slots, q.tag = tag → q.stage ≠ .sending) : AccountKept s (Machine.completeSlot l tag st s) :=
  of_parts (fun h => h.completeSlot st quiet) fun h => h.completeSlot st still

/-- A slot that is ISSUED is not answered yet (R35). -/
theorem issued_unanswered {s : State} (h : AccountLaw s) {l : Lane} {tag : Tag} {q : Slot}
    (found : s.slot? l tag = some q) (issued : q.stage = .issued) : tag ∉ (s.lane l).answered := by
  intro answered
  obtain ⟨p, hp, e, done⟩ := (streamLaw_iff.1 h.streams l).head tag answered
  have hp : p ∈ (s.lane l).slots := List.mem_of_mem_head? (by simpa using hp)
  rw [h.base.eq_of_tag found hp e, issued] at done
  rcases done with e | e <;> cases e

theorem settleSlot (l : Lane) (tag : Tag) (s : State) : AccountKept s (settleSlot l tag s) := by
  unfold Machine.settleSlot
  split
  · exact refl s
  · rename_i q found
    split
    · rename_i settled
      rw [Bool.and_eq_true, beq_iff_eq, List.all_eq_true] at settled
      obtain ⟨issued, outcomes⟩ := settled
      intro h
      have only : ∀ p ∈ (s.lane l).slots, p.tag = tag → p = q := fun p hp e => h.base.eq_of_tag found hp e
      have quiet : s.Quiet l tag := .of_outcomes fun p hp e x hx => by
        rw [only p hp e] at hx
        simpa using outcomes x hx
      split
      · exact afterLeaving l _ (discardSlot quiet (issued_unanswered h found issued) h)
      · exact completeSlot_quiet _ quiet (fun p hp e => by rw [only p hp e, issued]; decide) h
    · exact refl s

/-- A piece takes its outcome (R31): no id answers to it any more, and its slot is ISSUED in the direction of the transaction. -/
theorem pieceOutcome {p : PieceRef} (o : Outcome) {txn : Transaction} (beats : List Beat) {s : State}
    (free : s.Unanswered p) (slot : ∀ q, s.slot? p.lane p.tag = some q → q.stage = .issued ∧ q.dir = txn.dir) :
    AccountKept s (pieceOutcome p o txn beats s) := by
  unfold Machine.pieceOutcome
  dsimp only
  refine AccountKept.trans ?_ (settleSlot _ _ _)
  have taken : AccountKept s (s.updPiece p fun x => { x with status := o.pieceStatus, memId := none }) :=
    statusPiece free fun _ => rfl
  split
  · rename_i read
    split
    · refine taken.trans (fillPiece _ _ _ fun q found => ?_)
      have upd : (s.updPiece p fun x => { x with status := o.pieceStatus, memId := none }).slot? p.lane p.tag
          = (s.slot? p.lane p.tag).map fun q => q.modifyPiece p fun x =>
            { x with status := o.pieceStatus, memId := none } := by
        rw [updPiece_eq]
        unfold State.slot?
        rw [updSlot_lane_self]
        exact slot?_updSlot_self _ _ _ fun _ => rfl
      rw [upd] at found
      obtain ⟨x, hx, rfl⟩ := Option.map_eq_some_iff.1 found
      obtain ⟨issued, dir⟩ := slot x hx
      exact ⟨dir.trans read, issued⟩
    · exact taken
  · exact taken

theorem piece?_inUse (p : PieceRef) (n : Nat) (txn : Transaction) :
    (IdState.inUse (.piece p) n txn).piece? = some (p, txn.dir) := rfl

/-- An id that ends its transaction: its piece pends under no other id (R31, R121). -/
theorem unanswered_of_ended {s : State} (h : AccountLaw s) {i : MemId} {p : PieceRef} {n : Nat} {txn : Transaction}
    (used : s.memId i = .inUse (.piece p) n txn) {x : IdState} (none_ : x.piece? = none) :
    (s.setId i x).Unanswered p
      ∧ ∀ q, (s.setId i x).slot? p.lane p.tag = some q → q.stage = .issued ∧ q.dir = txn.dir := by
  obtain ⟨q, hq, tag, issued, dir, a, ha, _, answers⟩ := h.ids i (p, txn.dir) (by rw [used]; simp [piece?_inUse])
  refine ⟨fun j y hy e => ?_, fun r found => ?_⟩
  · by_cases same : j = i
    · subst same
      rw [setId_memId_self, none_] at hy
      cases hy
    · rw [setId_memId_ne s x same] at hy
      obtain ⟨r, hr, tag', _, _, b, hb, _, answers'⟩ := h.ids j y hy
      rw [e] at hr tag' hb
      have one : r = q := List.inj_on_of_nodup_map (h.tags p.lane) hr hq (tag'.trans tag.symm)
      rw [one] at hb
      have : a = b := by
        have ha : q.pieces[p.place]? = some a := by simpa using ha
        have hb : q.pieces[p.place]? = some b := by simpa using hb
        exact Option.some.inj (ha.symm.trans hb)
      rw [← this, answers] at answers'
      exact same (Option.some.inj answers').symm
  · have found : s.slot? p.lane p.tag = some r := found
    have one : q = r := h.base.eq_of_tag found hq tag
    exact one ▸ ⟨issued, dir⟩

theorem handOutcome {i : MemId} {owner : Owner} {n : Nat} {txn : Transaction} {x : IdState} (o : Outcome)
    (beats : List Beat) {s : State} (used : s.memId i = .inUse owner n txn) (none_ : x.piece? = none) :
    AccountKept s (handOutcome owner o txn beats (s.setId i x)).1 := by
  intro h
  have freed := setId_free (i := i) none_ h
  unfold Machine.handOutcome
  split
  · obtain ⟨free, slot⟩ := unanswered_of_ended h used none_
    exact pieceOutcome o beats free slot freed
  · exact walkOutcome _ _ _ _ _ (useFree 1 _ freed)

theorem endTransaction {i : MemId} {owner : Owner} {n : Nat} {txn : Transaction} {x : IdState} (o : Outcome)
    (beats : List Beat) {s : State} (used : s.memId i = .inUse owner n txn) (none_ : x.piece? = none) :
    AccountKept s (endTransaction i x owner o txn beats s) := by
  unfold Machine.endTransaction
  dsimp only
  exact ((handOutcome o beats used none_).trans (reportAll _ _)).trans (restartProgress _)

theorem memoryResponse (i : MemId) (st : MemStatus) (beats : List Beat) (s : State) :
    AccountKept s (memoryResponse i st beats s) := by
  unfold Machine.memoryResponse
  split
  · exact endTransaction _ _ ‹_› rfl
  · exact ((setId_free rfl).trans (report _ _)).trans (restartProgress _)
  · exact report _ s

theorem responseTimeout (i : MemId) (s : State) : AccountKept s (responseTimeout i s) := by
  unfold Machine.responseTimeout
  split
  · exact endTransaction _ _ ‹_› rfl
  all_goals exact refl s

end AccountKept

end Sys2Proof.Machine
end

section
/-! The accounts, tenth part: grants. -/

namespace Sys2Proof.Machine

/-- The ids of a grant: as many as it needs, all different and FREE (R123, R128). -/
theorem pickIds_spec {s : State} (want : List MemId) {n : Nat} (enough : n ≤ s.freeIds.length) :
    (s.pickIds want n).length = n ∧ (s.pickIds want n).Nodup ∧ ∀ i ∈ s.pickIds want n, s.memId i = .free := by
  have free : ∀ {i : MemId}, (s.memId i).isFree = true → s.memId i = .free := fun {i} h => by
    cases e : s.memId i with
    | free => rfl
    | inUse owner n txn => rw [e] at h; cases h
    | quarantined => rw [e] at h; cases h
  unfold State.pickIds
  split
  · rename_i named
    rw [Bool.and_eq_true, Bool.and_eq_true, beq_iff_eq, decide_eq_true_iff, List.all_eq_true] at named
    exact ⟨named.1.1, named.1.2, fun i hi => free (named.2 i hi)⟩
  · refine ⟨by rw [List.length_take]; omega, ?_, fun i hi => ?_⟩
    · exact ((List.nodup_finRange 16).filter _).sublist (List.take_sublist _ _)
    · exact free (List.mem_filter.1 (List.mem_of_mem_take hi)).2

/-- The choice of a lane leaves the ids (R131, R132). -/
theorem laneChoice_ids {s : State} {l : Lane} {p : MemoryPort} (h : s.laneChoice = some (l, p)) :
    p.ids = s.port.ids := by
  unfold State.laneChoice at h
  split at h
  · rw [← (Prod.mk.inj (Option.some.inj h)).2]; rfl
  · split at h
    · rw [← (Prod.mk.inj (Option.some.inj h)).2]; rfl
    · obtain ⟨k, _, e⟩ := Option.map_eq_some_iff.1 h
      rw [← (Prod.mk.inj e).2]; rfl

/-- What a lane's offer has established (R29, R94, R130). -/
theorem offer_spec {s : State} {l : Lane} {q : Slot} (h : s.offer l = some q) :
    q ∈ (s.lane l).slots ∧ q.stage = .queued ∧ (s.lane l).issued < (s.agent l).maxOutstanding
      ∧ (q.dir = .read → unitsFor q.length ≤ s.readRoom l) := by
  unfold State.offer at h
  dsimp only at h
  split at h
  · rename_i may
    split at h
    · rename_i p oldest
      split at h
      · rename_i offered
        cases h
        simp only [Bool.and_eq_true, beq_iff_eq, decide_eq_true_iff, Bool.or_eq_true] at may offered
        refine ⟨List.mem_of_find?_eq_some oldest, offered.1.1, may.2, fun read => ?_⟩
        rw [read] at offered
        simpa using offered.2
      · cases h
    · cases h
  · cases h

/-! ### The pieces of a granted slot (R123) -/

/-- The slot of this piece is ISSUED in this direction, and no id answers to the piece. -/
structure State.Issuable (s : State) (p : PieceRef) (dir : Dir) : Prop where
  slot : ∃ q ∈ (s.lane p.lane).slots, q.tag = p.tag ∧ q.stage = .issued ∧ q.dir = dir ∧ ∃ x, q.pieces[p.place]? = some x
  free : s.Unanswered p

theorem issuePiece_account {l : Lane} {q : Slot} {upper : Bool} (x : Piece) {i : MemId} {s : State} (h : AccountLaw s)
    (piece : s.Issuable ⟨l, q.tag, upper⟩ q.dir) : AccountLaw (issuePiece l q upper x i s) := by
  have taken : AccountLaw (s.updPiece ⟨l, q.tag, upper⟩ fun p => { p with memId := some i, status := .pending }) :=
    AccountKept.statusPiece piece.free (fun _ => rfl) h
  unfold issuePiece
  dsimp only
  have used : AccountLaw ((s.updPiece ⟨l, q.tag, upper⟩ fun p => { p with memId := some i, status := .pending }).setId i
      (.inUse (.piece ⟨l, q.tag, upper⟩) s.portRow.timeout (pieceTransaction q upper x s.staging s.freeCount))) := by
    refine AccountKept.setId (fun y hy => ?_) taken
    have hy : y = (⟨l, q.tag, upper⟩, q.dir) := by
      rw [AccountKept.piece?_inUse] at hy
      simpa [pieceTransaction] using hy
    subst hy
    obtain ⟨r, hr, tag, issued, dir, a, ha⟩ := piece.slot
    refine ⟨r.modifyPiece ⟨l, q.tag, upper⟩ fun p => { p with memId := some i, status := .pending }, ?_, tag, issued, dir,
      { a with memId := some i, status := .pending }, ?_, rfl, rfl⟩
    · rw [updPiece_eq, updSlot_lane_self]
      refine List.mem_map.2 ⟨r, hr, ?_⟩
      rw [if_pos (by simpa using tag)]
    · unfold Slot.modifyPiece
      rw [List.getElem?_modify, ha]
      simp
  exact AccountKept.useFree _ _ used

theorem modifyPiece_some {q : Slot} {k : Nat} {a : Piece} (p : PieceRef) (f : Piece → Piece)
    (ha : q.pieces[k]? = some a) : ∃ b, (q.modifyPiece p f).pieces[k]? = some b := by
  unfold Slot.modifyPiece
  rw [List.getElem?_modify, ha]
  exact ⟨_, rfl⟩

theorem issuePiece_issuable {l : Lane} {q : Slot} {upper : Bool} (x : Piece) (i : MemId) {s : State} {p : PieceRef}
    {dir : Dir} (ne : p ≠ ⟨l, q.tag, upper⟩) (h : s.Issuable p dir) : (issuePiece l q upper x i s).Issuable p dir := by
  refine ⟨?_, fun j y hy => ?_⟩
  · obtain ⟨r, hr, tag, issued, dir, a, ha⟩ := h.slot
    show ∃ r ∈ ((s.updPiece ⟨l, q.tag, upper⟩ fun p => { p with memId := some i, status := .pending }).lane p.lane).slots, _
    rw [updPiece_eq]
    by_cases e : p.lane = l
    · rw [e] at hr ⊢
      rw [updSlot_lane_self]
      by_cases t : r.tag = q.tag
      · refine ⟨_, List.mem_map.2 ⟨r, hr, rfl⟩, ?_⟩
        rw [if_pos (by simpa using t)]
        exact ⟨tag, issued, dir, modifyPiece_some _ _ ha⟩
      · refine ⟨_, List.mem_map.2 ⟨r, hr, rfl⟩, ?_⟩
        rw [if_neg (by simpa using t)]
        exact ⟨tag, issued, dir, a, ha⟩
    · rw [updSlot_lane_ne s _ _ e]
      exact ⟨r, hr, tag, issued, dir, a, ha⟩
  · by_cases e : j = i
    · subst e
      have used : (issuePiece l q upper x j s).memId j
          = .inUse (.piece ⟨l, q.tag, upper⟩) s.portRow.timeout (pieceTransaction q upper x s.staging s.freeCount) := by
        unfold issuePiece
        simp
      rw [used, AccountKept.piece?_inUse, Option.toList_some, List.mem_singleton] at hy
      rw [hy]
      exact Ne.symm ne
    · have other : (issuePiece l q upper x i s).memId j = s.memId j := by
        unfold issuePiece
        simp only [useFree_memId]
        rw [setId_memId_ne _ _ e]
        rfl
      rw [other] at hy
      exact h.free j y hy

/-- Pieces of a granted slot issued one after another. -/
theorem issuePieces_account {l : Lane} {q : Slot} : ∀ (xs : List (Piece × Bool)) (ids : List MemId) {s : State},
    AccountLaw s → (xs.map (·.2)).Nodup → (∀ x ∈ xs, s.Issuable ⟨l, q.tag, x.2⟩ q.dir) →
    AccountLaw (forEach (xs.zip ids) (fun x => issuePiece l q x.1.2 x.1.1 x.2) s)
  | [], _, _, h, _, _ => h
  | _ :: _, [], _, h, _, _ => h
  | x :: xs, i :: ids, s, h, once, todo => by
    rw [List.map_cons, List.nodup_cons] at once
    rw [List.zip_cons_cons, forEach_cons]
    refine issuePieces_account xs ids (issuePiece_account x.1 h (todo x (List.mem_cons_self ..))) once.2 fun y hy => ?_
    refine issuePiece_issuable x.1 i (fun e => once.1 ?_) (todo y (List.mem_cons_of_mem _ hy))
    have same : y.2 = x.2 := congrArg PieceRef.upper e
    exact same ▸ List.mem_map_of_mem hy

/-! ### The slot of a grant (R133) -/

/-- A slot becomes ISSUED, with its lane's issued count (R30, R133). -/
def State.issuedSlot (s : State) (l : Lane) (tag : Tag) : State :=
  s.updLane l fun r => { r.updSlot tag fun q => { q with stage := .issued } with issued := r.issued + 1 }

theorem issuedSlot_slot? {s : State} {l : Lane} {tag : Tag} {q : Slot} (found : s.slot? l tag = some q) :
    (s.issuedSlot l tag).slot? l tag = some { q with stage := .issued } := by
  unfold State.slot? State.issuedSlot
  rw [updLane_lane_self]
  have upd := slot?_updSlot_self (s.lane l) tag (fun q => { q with stage := .issued }) fun _ => rfl
  rw [show (s.lane l).slot? tag = some q from found] at upd
  exact upd

namespace AccountKept

theorem issuedSlot {s : State} {l : Lane} {tag : Tag} {q : Slot} (found : s.slot? l tag = some q)
    (queued : q.stage = .queued) (below : (s.lane l).issued < (s.agent l).maxOutstanding) :
    AccountKept s (s.issuedSlot l tag) := by
  intro h
  have base : BaseLaw (s.issuedSlot l tag) := by
    refine h.base.replaceSlot (f := fun q => { q with stage := .issued }) (n := (s.lane l).issued + 1) found
      ⟨rfl, rfl, rfl⟩ (fun e => by rcases e with e | e <;> cases e) ?_ below (fun p _ _ w => ?_) fun i y _ _ w => ?_
    · rw [issuedIn_singleton, issuedIn_singleton, queued]
      rfl
    · have := w.2.1
      rw [queued] at this
      cases this
    · have := w.2.1
      rw [queued] at this
      cases this
  refine base.account (h.streams.of_lane (l := l) (fun _ hk => updLane_lane_ne s _ hk) rfl fun ok => ?_)
  rw [show (s.issuedSlot l tag).lane l = _ from updLane_lane_self s l _]
  have other : ∀ x ∈ (s.lane l).slots, x.stage ≠ .queued → x.tag ≠ tag := fun x hx stage e =>
    stage (by rw [h.base.eq_of_tag found hx e, queued])
  refine ok.map (fun q => if q.tag == tag then { q with stage := .issued } else q) rfl rfl (fun x => by split <;> rfl)
    (fun x hx done => ?_) fun x hx sending => ?_
  · rw [if_neg]
    · exact done
    · simpa using other x hx fun e => by rw [e] at done; rcases done with d | d <;> cases d
  · rw [if_neg]
    · exact sending
    · simpa using other x hx fun e => by rw [e] at sending; cases sending

/-- The units of a granted READ are reserved (R95). -/
theorem reserveUnits {s : State} {l : Lane} {tag : Tag} {q : Slot} {n : Nat} (found : s.slot? l tag = some q)
    (read : q.dir = .read) (issued : q.stage = .issued) (empty : q.held = []) (room : n ≤ s.readRoom l) :
    AccountKept s (reserveUnits l tag n s) := by
  unfold Machine.reserveUnits
  dsimp only
  refine of_parts (fun h => ?_) fun h => h.setHeld (l := l) (tag := tag)
    (held := ((s.lane l).freeUnits (s.laneArea l).row.readShare n).map fun u => ⟨u, false⟩)
    (fun k hk => by simp [updSlot_lane_ne s tag _ hk]) (by simp) rfl
  have joined := h.joined_of_slot? found
  have counts := (h.lane l).counts joined
  have within := counts.readShare
  have room : n ≤ (s.area (s.agent l).area).row.readUnits
      - ((s.area (s.agent l).area).readReserved + (s.area (s.agent l).area).readFilled) := room
  have some_ : n + ((s.area (s.agent l).area).readReserved + (s.area (s.agent l).area).readFilled)
      ≤ (s.area (s.agent l).area).row.readUnits := by omega
  have length := (h.lane l).freeRead joined some_
  have units : (((s.lane l).freeUnits (s.laneArea l).row.readShare n).map fun u => (⟨u, false⟩ : HeldUnit)).map (·.unit)
      = (s.lane l).freeUnits (s.laneArea l).row.readShare n := by
    rw [List.map_map]
    exact List.map_id _
  have fresh : ∀ x ∈ (((s.lane l).freeUnits (s.laneArea l).row.readShare n).map fun u => (⟨u, false⟩ : HeldUnit)),
      x.filled = false ∧ x.unit ∈ (s.lane l).freeUnits (s.laneArea l).row.readShare n := by
    intro x hx
    obtain ⟨u, hu, rfl⟩ := List.mem_map.1 hx
    exact ⟨rfl, hu⟩
  have held : (((s.lane l).freeUnits (s.laneArea l).row.readShare n).map fun u => (⟨u, false⟩ : HeldUnit)).length = n := by
    rw [List.length_map]
    exact length
  generalize ((s.lane l).freeUnits (s.laneArea l).row.readShare n).map (fun u => (⟨u, false⟩ : HeldUnit)) = held_
    at units fresh held ⊢
  have open_ : (held_.filter fun u => !u.filled) = held_ := List.filter_eq_self.2 fun x hx => by simp [(fresh x hx).1]
  have none_ : (held_.filter (·.filled)) = [] := List.filter_eq_nil_iff.2 fun x hx => by simp [(fresh x hx).1]
  refine h.setHeld (held := held_) found read issued
    ⟨rfl, fun k hk => by simp [updSlot_lane_ne s tag _ hk], fun b hb => updArea_area_ne _ _ hb⟩ (by simp) rfl rfl ?_
    (fun u hu => .inl (mem_freeUnits (fresh u hu).2)) ?_ ?_ ?_ ?_ ?_
  · rw [units]
    exact freeUnits_nodup (readShare_nodup _) _
  all_goals
    simp only [updArea_area_self, State.updSlot, updLane_area, empty, open_, none_, held, List.filter_nil,
      List.length_nil]
  all_goals omega

theorem chargeClass (l : Lane) (dir : Dir) (n : Nat) (s : State) : AccountKept s (chargeClass l dir n s).1 := by
  unfold Machine.chargeClass
  dsimp only
  repeat' split
  all_goals exact of_same rfl rfl rfl rfl rfl rfl

/-- The slot of a grant before its pieces are issued: ISSUED, and a READ with its units reserved (R95, R133). -/
theorem reservedSlot {s : State} {l : Lane} {q : Slot} (h : AccountLaw s) (offered : s.offer l = some q)
    {t : State} (t_eq : t = if q.dir == .read then Machine.reserveUnits l q.tag (unitsFor q.length) (s.issuedSlot l q.tag)
      else s.issuedSlot l q.tag) :
    AccountLaw t ∧ (∀ i, t.memId i = s.memId i) ∧ ∃ r ∈ (t.lane l).slots, r.tag = q.tag ∧ r.stage = .issued ∧ r.dir = q.dir
      ∧ r.pieces = q.pieces := by
  obtain ⟨mem, queued, below, room⟩ := offer_spec offered
  have found : s.slot? l q.tag = some q := slot?_of_mem (h.tags l) mem
  have issued : AccountLaw (s.issuedSlot l q.tag) := issuedSlot found queued below h
  have slot := issuedSlot_slot? found
  have slots := slot?_mem slot
  cases dir : q.dir with
  | write =>
    rw [dir] at t_eq
    subst t_eq
    exact ⟨issued, fun _ => rfl, _, slots, rfl, rfl, dir, rfl⟩
  | read =>
    rw [dir] at t_eq
    subst t_eq
    have empty : q.held = [] := ((h.base.lane l).shares q mem).unissued dir (.inr queued)
    refine ⟨reserveUnits slot dir rfl empty (room dir) issued, fun _ => rfl, ?_⟩
    have lane : (Machine.reserveUnits l q.tag (unitsFor q.length) (s.issuedSlot l q.tag)).lane l
        = ((s.issuedSlot l q.tag).lane l).updSlot q.tag fun r =>
          { r with held := (((s.issuedSlot l q.tag).lane l).freeUnits
              ((s.issuedSlot l q.tag).laneArea l).row.readShare (unitsFor q.length)).map fun u => ⟨u, false⟩ } := by
      simp [Machine.reserveUnits]
    refine ⟨{ q with
      stage := .issued
      held := (((s.issuedSlot l q.tag).lane l).freeUnits
        ((s.issuedSlot l q.tag).laneArea l).row.readShare (unitsFor q.length)).map fun u => ⟨u, false⟩ },
      ?_, rfl, rfl, dir, rfl⟩
    show _ ∈ ((Machine.reserveUnits l q.tag (unitsFor q.length) (s.issuedSlot l q.tag)).lane l).slots
    rw [lane]
    exact List.mem_map.2 ⟨_, slots, if_pos (by simp)⟩

/-- No id answers to a slot that is QUEUED. -/
theorem unanswered_of_queued {s : State} (h : AccountLaw s) {l : Lane} {q : Slot} (mem : q ∈ (s.lane l).slots)
    (queued : q.stage = .queued) (u : Bool) : s.Unanswered ⟨l, q.tag, u⟩ := by
  intro i y hy piece
  obtain ⟨r, hr, tag, issued, _⟩ := h.ids i y hy
  rw [piece] at hr tag
  rw [List.inj_on_of_nodup_map (h.tags l) hr mem tag, queued] at issued
  cases issued

theorem grantSlot {s : State} {l : Lane} {q : Slot} {p : MemoryPort} (ids : List MemId) (offered : s.offer l = some q)
    (same : p.ids = s.port.ids) : AccountKept s (grantSlot l q p ids s) := by
  intro h
  have port : ∀ i, (s.withPort fun _ => p).memId i = s.memId i := fun i => by
    simp only [State.memId, withPort_port, same]
  have chosen : AccountKept s (s.withPort fun _ => p) := of_ids rfl rfl rfl rfl (fun i => by rw [port]) rfl
  obtain ⟨law, kept, r, hr, tag, issued, dir, pieces⟩ := reservedSlot (s := s.withPort fun _ => p) (chosen h) offered rfl
  obtain ⟨mem, queued, _⟩ := offer_spec offered
  unfold Machine.grantSlot
  dsimp only
  refine reportAll _ _ (chargeClass _ _ _ _ (issuePieces_account _ ids law (zip_uppers_nodup _) fun x hx => ⟨?_, ?_⟩))
  · exact ⟨r, hr, tag, issued, dir, x.1, by rw [pieces]; exact mem_zip_uppers hx l q.tag⟩
  · intro i y hy
    refine unanswered_of_queued h mem queued x.2 i y ?_
    rw [← port, ← kept i]
    exact hy

theorem grantWalk {w : WalkNo} {x : Walk} (ids : List MemId) {s : State} (walk : s.walk w = some x) :
    AccountKept s (grantWalk w x ids s) := by
  unfold Machine.grantWalk
  split
  · split
    · exact (setWalk_same (y := { x with reading := true }) walk rfl rfl).trans (setId_free rfl)
    · exact refl s
  · exact ((failWalk walk).trans (reportAll _ _)).trans (restartProgress _)

theorem grant (want : List MemId) (s : State) : AccountKept s (grant want s) := by
  unfold Machine.grant
  split
  · rename_i w x ready
    split
    · exact grantWalk _ (readyWalk_ready ready).1
    · exact refl s
  · split
    · rename_i l p choice
      split
      · rename_i q offered
        split
        · exact grantSlot _ offered (laneChoice_ids choice)
        · unfold leaveUngranted
          split
          · exact of_ids rfl rfl rfl rfl (fun _ => rfl) rfl
          · exact refl s
      · exact refl s
    · exact refl s

end AccountKept

end Sys2Proof.Machine
end

section
/-! The accounts, last part: the link, the streams, the rows, JOIN, and every step. -/

namespace Sys2Proof.Machine

namespace AccountKept

/-! ### Transmission (R178, R179) -/

/-- No stream is in transmission any more, or another source is. -/
theorem link {s : State} {f : LinkPort → LinkPort} (none_ : ∀ l, ¬(f s.link).Started l) : AccountKept s (s.withLink f) :=
  of_parts (fun h => ⟨h.lane, h.apart, h.idle, h.indexes, h.waiters, h.ids⟩) fun h =>
    streamLaw_iff.2 fun l =>
      have ok := streamLaw_iff.1 h l
      ⟨ok.one, ok.head, fun started => absurd started (none_ l)⟩

theorem started_none {k : LinkPort} (h : k.tx = none) (l : Lane) : ¬k.Started l := by
  rintro ⟨x, hx, _⟩
  rw [h] at hx
  cases hx

theorem started_some {k : LinkPort} {x : Transmission} (h : k.tx = some x) (l : Lane) :
    k.Started l ↔ x.source = .stream l := by
  simp [LinkPort.Started, h]

/-- A parcel of another source than a stream is sent. -/
theorem send {s : State} {source : TxSource} (p : Parcel) (other : ∀ l, source ≠ .stream l) :
    AccountKept s (send source p s) :=
  link fun l started => other l ((started_some rfl l).1 started)

/-- The stream that is in transmission: it is not empty, and the slot that its head answers is SENDING (R37). -/
theorem sendStream {s : State} {l : Lane} (p : Parcel) (some_ : (s.lane l).stream ≠ [])
    (sending : ∀ tag ∈ ((s.lane l).stream.head?.bind StreamItem.answers).toList,
      ∃ q ∈ (s.lane l).slots, q.tag = tag ∧ q.stage = .sending) : AccountKept s (Machine.send (.stream l) p s) :=
  of_parts (fun h => ⟨h.lane, h.apart, h.idle, h.indexes, h.waiters, h.ids⟩) fun h =>
    streamLaw_iff.2 fun k => by
      have ok := streamLaw_iff.1 h k
      refine ⟨ok.one, ok.head, fun started => ?_⟩
      cases (started_some rfl k).1 started
      exact ⟨some_, sending⟩

/-- The slot of an answer: the head of the list, COMPLETE or SENDING (R35). -/
theorem answered_slot {s : State} (h : AccountLaw s) {l : Lane} {tag : Tag} (answered : tag ∈ (s.lane l).answered) :
    ∃ q, s.slot? l tag = some q ∧ (q.stage = .complete ∨ q.stage = .sending) := by
  obtain ⟨q, hq, e, done⟩ := (streamLaw_iff.1 h.streams l).head tag answered
  have hq : q ∈ (s.lane l).slots := List.mem_of_mem_head? (by simpa using hq)
  exact ⟨q, e ▸ slot?_of_mem (h.tags l) hq, done⟩

theorem head_answered {r : LaneState} {tag : Tag} (head : r.stream.head? = some (.answer tag)) : tag ∈ r.answered := by
  unfold LaneState.answered
  refine List.mem_filterMap.2 ⟨.answer tag, List.mem_of_mem_head? head, rfl⟩

/-- The slot of an answer becomes SENDING (R37). -/
theorem sendingSlot {s : State} {l : Lane} {tag : Tag} {q : Slot} (found : s.slot? l tag = some q)
    (done : q.stage = .complete ∨ q.stage = .sending) :
    AccountKept s (s.updSlot l tag fun q => { q with stage := .sending }) := by
  refine of_parts (fun h => h.updSlot (fun _ => ⟨rfl, rfl, rfl⟩) (fun p hp => ?_) (fun p hp r _ _ w => ?_)
    fun p hp i y _ _ w => ?_) fun h => h.updSlot (fun _ => rfl) (fun _ _ _ _ => .inr rfl) fun _ _ _ _ => rfl
  all_goals cases found.symm.trans hp
  · refine ⟨?_, fun e => by rcases e with e | e <;> cases e⟩
    rcases done with e | e <;> simp [e]
  · have := w.2.1
    rcases done with e | e <;> rw [e] at this <;> cases this
  · have := w.2.1
    rcases done with e | e <;> rw [e] at this <;> cases this

theorem startItem {s : State} {l : Lane} {x : StreamItem} (head : (s.lane l).stream.head? = some x) :
    AccountKept s (startItem l x s) := by
  have some_ : (s.lane l).stream ≠ [] := fun e => by rw [e] at head; cases head
  have reply : ∀ p, x.answers = none → AccountKept s (Machine.send (.stream l) p s) := fun p e =>
    sendStream p some_ (by rw [head, Option.bind_some, e]; exact fun _ hx => nomatch hx)
  unfold Machine.startItem
  split
  · rename_i tag
    split
    · rename_i q found
      intro h
      obtain ⟨p, hp, done⟩ := answered_slot h (head_answered head)
      cases found.symm.trans hp
      have law := sendingSlot found done h
      have stream : ((s.updSlot l tag fun q => { q with stage := .sending }).lane l).stream = (s.lane l).stream := by
        rw [updSlot_lane_self]; rfl
      refine useFree _ _ (sendStream _ (by rw [stream]; exact some_) (fun x hx => ?_) law)
      rw [stream, head] at hx
      have hx : x = tag := by simpa [StreamItem.answers, eq_comm] using hx
      refine ⟨{ q with stage := .sending }, ?_, (slot?_tag found).trans hx.symm, rfl⟩
      rw [updSlot_lane_self]
      exact List.mem_map.2 ⟨q, slot?_mem found, if_pos (by simpa using slot?_tag found)⟩
    · exact refl s
  all_goals exact reply _ rfl

theorem startStream {s : State} (l : Lane) (free : s.link.tx = none) : AccountKept s (startStream l s) := by
  unfold Machine.startStream
  split
  · rename_i x head
    exact (link (f := fun k => { k with lastStream := l }) (started_none free)).trans (startItem head)
  · exact refl s

theorem startCredit {s : State} (l : Lane) (free : s.link.tx = none) : AccountKept s (startCredit l s) := by
  have waited : AccountKept s (s.updLane l fun r => { r with creditWaiting := none }) :=
    of_parts (fun h => h.updRecord Iff.rfl rfl rfl rfl) fun h =>
      h.of_lane (fun _ hk => updLane_lane_ne s _ hk) rfl fun ok => by rw [updLane_lane_self]; exact ok.congr rfl rfl
  exact ((waited.trans (link (f := fun k => { k with lastCredit := l }) (started_none free))).trans
    (send _ fun _ e => by cases e)).trans (useFree _ _)

theorem startBelow {s : State} (free : s.link.tx = none) : AccountKept s (startBelow s) := by
  unfold Machine.startBelow
  split
  · exact send _ fun _ e => by cases e
  · split
    · exact startCredit _ free
    · split
      · exact startStream _ free
      · exact refl s

theorem startNext {s : State} (may : s.mayTransmit = true) : AccountKept s (startNext s) := by
  have free : s.link.tx = none := by
    unfold State.mayTransmit at may
    rw [Bool.and_eq_true] at may
    simpa using may.2
  unfold Machine.startNext startNotice
  split
  · exact send _ fun _ e => by cases e
  · split
    · split
      · exact (send _ fun _ e => by cases e).trans (useFree _ _)
      · exact startBelow free
    · exact (of_same rfl rfl rfl rfl rfl rfl : AccountKept s (s.withFaults _)).trans (startBelow free)

theorem mgmt (f : Mgmt → Mgmt) (s : State) : AccountKept s (s.withMgmt f) := of_same rfl rfl rfl rfl rfl rfl

theorem settleOp (s : State) : AccountKept s (settleOp s) := by
  unfold Machine.settleOp
  repeat' split
  all_goals exact of_same rfl rfl rfl rfl rfl rfl

/-- The head of a stream is gone; if it was an answer, none is left. -/
theorem popped {s : State} {l : Lane} {x : StreamItem} {rest : List StreamItem} (stream : (s.lane l).stream = x :: rest)
    (free : s.link.tx = none) : AccountKept s (s.updLane l fun r => { r with stream := rest }) :=
  of_parts (fun h => h.updRecord Iff.rfl rfl rfl rfl) fun h =>
    h.of_lane (fun _ hk => updLane_lane_ne s _ hk) rfl fun ok => by
      rw [updLane_lane_self]
      exact ok.sublist (stream ▸ List.sublist_cons_self x rest) rfl fun started => absurd started (started_none free l)

theorem freeSlot {s : State} {l : Lane} {tag : Tag} (free : tag ∉ (s.lane l).answered)
    (done : ∀ q ∈ (s.lane l).slots, q.tag = tag → q.stage = .complete ∨ q.stage = .sending) :
    AccountKept s (freeSlot l tag s) :=
  of_parts (fun h => h.freeSlot done) fun h => h.freeSlot free

theorem endStream {s : State} (l : Lane) (free : s.link.tx = none) : AccountKept s (endStream l s) := by
  unfold Machine.endStream
  split
  · exact refl s
  · rename_i x rest stream
    have left := popped stream free
    unfold Machine.endItem
    split
    · rename_i tag
      intro h
      have answered : (s.lane l).answered = tag :: rest.filterMap StreamItem.answers := by
        unfold LaneState.answered
        rw [stream]
        rfl
      obtain ⟨q, found, done⟩ := answered_slot h (l := l) (tag := tag) (by rw [answered]; exact List.mem_cons_self ..)
      have one := (streamLaw_iff.1 h.streams l).one
      rw [answered, List.length_cons] at one
      have none_ : rest.filterMap StreamItem.answers = [] := List.length_eq_zero_iff.1 (by omega)
      refine afterLeaving l _ (freeSlot ?_ (fun p hp e => ?_) (left h))
      · rw [updLane_lane_self]
        unfold LaneState.answered
        rw [none_]
        exact List.not_mem_nil
      · rw [updLane_lane_self] at hp
        rw [h.base.eq_of_tag found hp e]
        exact done
    · split
      · refine left.trans (of_parts (fun h => h.updRecord Iff.rfl rfl rfl rfl) fun h =>
          h.of_lane (fun _ hk => updLane_lane_ne _ _ hk) rfl fun ok => ?_)
        rw [updLane_lane_self (s.updLane l _)]
        exact ok.congr rfl rfl
      · exact left
    all_goals exact left

theorem transmissionEnd (s : State) : AccountKept s (transmissionEnd s) := by
  unfold Machine.transmissionEnd
  split
  · rename_i x _
    refine (link (f := fun k => { k with tx := none }) (started_none rfl)).trans ?_
    unfold endSource
    split
    · exact (mgmt _ _).trans (settleOp _)
    · exact of_same rfl rfl rfl rfl rfl rfl
    · exact of_same rfl rfl rfl rfl rfl rfl
    · exact refl _
    · exact endStream _ rfl
  · exact refl s

/-! ### Link loss (R174) -/

theorem freeCutOff_base {s : State} (h : AccountLaw s) : BaseLaw (freeCutOff s) := by
  unfold freeCutOff
  split
  · rename_i x tx
    split
    · rename_i l source
      split
      · rename_i tag head
        obtain ⟨q, found, done⟩ := answered_slot h (head_answered head)
        exact h.base.freeSlot fun p hp e => by
          rw [h.base.eq_of_tag found hp e]
          exact done
      all_goals exact h.base
    all_goals exact h.base
  · exact h.base

/-- Every source emptied: no stream holds anything, and nothing is in transmission. -/
theorem emptySources_account {s : State} (h : BaseLaw s) : AccountLaw (emptySources s) := by
  refine BaseLaw.account (h.congr_lanes rfl rfl rfl (fun _ => rfl) fun l => ?_) (streamLaw_iff.2 fun l => ?_)
  · rw [emptySources_lane]
    exact ⟨Iff.rfl, rfl, rfl, rfl⟩
  · rw [emptySources_lane]
    exact ⟨Nat.zero_le _, fun _ hx => (nomatch hx), fun started => absurd started (started_none rfl l)⟩

theorem linkLoss (s : State) : AccountKept s (linkLoss s) := fun h =>
  settleOp _ (forEach silenceJoined allLanes _ (report _ _ (emptySources_account (freeCutOff_base h))))

/-! ### Rows (R3, R88) -/

theorem setAgent {s : State} {l : Lane} {row : AgentRow} (detached : (s.lane l).session = .detached)
    (apart : ¬(row.enabled = true ∧ s.areaTaken l row.area = true)) : AccountKept s (s.setAgent l row) := by
  have free : row.enabled = true → ∀ k, k ≠ l → (s.agent k).enabled = true → (s.agent k).area ≠ row.area := by
    intro enabled k ne on same
    refine apart ⟨enabled, List.any_eq_true.2 ⟨k, List.mem_finRange k, ?_⟩⟩
    simp [ne, on, same]
  refine of_parts (fun h => ⟨fun k => ?_, fun j k => ?_, fun a none_ => ?_, h.indexes, h.waiters, h.ids⟩) fun h => h
  · by_cases e : k = l
    · subst e
      rw [setAgent_agent_self]
      have empty := (h.lane k).away detached
      exact
        { (h.lane k) with
          enabled := fun joined => absurd detached joined
          issuedLe := by show (s.lane k).issued ≤ _; rw [empty.2.1]; exact Nat.zero_le _
          shares := fun q hq => by
            have hq : q ∈ (s.lane k).slots := hq
            rw [empty.1] at hq
            cases hq
          counts := fun joined => absurd detached joined }
    · rw [setAgent_agent_ne s row e]
      exact h.lane k
  · intro ej ek same
    by_cases e : j = l
    · by_cases e' : k = l
      · rw [e, e']
      · rw [e, setAgent_agent_self] at ej
        rw [e, setAgent_agent_self, setAgent_agent_ne s row e'] at same
        rw [setAgent_agent_ne s row e'] at ek
        exact absurd same.symm (free ej k e' ek)
    · rw [setAgent_agent_ne s row e] at ej
      by_cases e' : k = l
      · rw [e', setAgent_agent_self] at ek
        rw [e', setAgent_agent_self, setAgent_agent_ne s row e] at same
        exact absurd same (free ek j e ej)
      · rw [setAgent_agent_ne s row e'] at ek
        rw [setAgent_agent_ne s row e, setAgent_agent_ne s row e'] at same
        exact h.apart j k ej ek same
  · refine h.idle a fun k joined => ?_
    have ne : k ≠ l := fun e => joined (e ▸ detached)
    have := none_ k joined
    rwa [setAgent_agent_ne s row ne] at this

theorem areaRow {s : State} {a : Fin 16} {row : AreaRow} (idle : s.areaInUse a = false) :
    AccountKept s (s.updArea a fun x => { x with row := row }) := by
  refine of_parts (fun h => ?_) fun h => h
  have away : ∀ l, (s.agent l).area = a → (s.lane l).session = .detached := by
    intro l e
    by_contra joined
    have := List.any_eq_false.1 idle l (List.mem_finRange l)
    simp [e, (h.lane l).enabled joined, joined] at this
  refine ⟨fun l => ?_, h.apart, fun b none_ => ?_, h.indexes, h.waiters, h.ids⟩
  · rw [updArea_agent, updArea_lane, updArea_area]
    split
    · rename_i e
      exact (h.lane l).anyArea (away l e)
    · exact h.lane l
  · rw [updArea_area]
    have counts := h.idle b none_
    split
    · rename_i e
      rw [e] at counts
      exact counts
    · exact counts

/-! ### Sessions (R6, R15) -/

theorem resume {s : State} {l : Lane} (suspended : (s.lane l).session = .suspended) :
    AccountKept s (Machine.grantRule l (s.updLane l fun r => { r with session := .active })) := by
  have active : AccountKept s (s.updLane l fun r => { r with session := .active }) :=
    of_parts (fun h => h.updRecord (Iff.intro (fun e => by cases e) fun e => by rw [suspended] at e; cases e) rfl rfl rfl)
      fun h => h.of_lane (fun _ hk => updLane_lane_ne s _ hk) rfl fun ok => by
        rw [updLane_lane_self]; exact ok.congr rfl rfl
  exact active.trans (grantRule l _)

theorem immediate {s : State} (l : Lane) {x : StreamItem} (item : x.answers = none) : AccountKept s (handItem l x s) :=
  of_parts (fun h => h.updRecord Iff.rfl rfl rfl rfl) fun h => h.handItem l item

/-- A DETACHED lane with an enabled row joins: its area holds nothing yet (R6, R18). -/
theorem join {s : State} {l : Lane} (tag : Tag) (detached : (s.lane l).session = .detached)
    (enabled : (s.agent l).enabled = true) : AccountKept s (s.updLane l fun r => r.join tag) := by
  refine of_parts (fun h => ?_) fun h => h.of_lane (fun _ hk => updLane_lane_ne s _ hk) rfl fun ok => by
    rw [updLane_lane_self]
    exact ok.append rfl rfl rfl
  obtain ⟨empty, none_, nothing⟩ := (h.lane l).away detached
  have others : ∀ k, (s.lane k).session ≠ .detached → (s.agent k).area ≠ (s.agent l).area := fun k joined same =>
    joined (h.apart k l ((h.lane k).enabled joined) enabled same ▸ detached)
  obtain ⟨occupied, reserved, filled⟩ := h.idle _ others
  refine ⟨fun k => ?_, h.apart, fun a idle => ?_, h.indexes, ?_, ?_⟩
  · by_cases e : k = l
    · subst e
      rw [updLane_lane_self]
      refine { (h.lane k) with away := (fun e => by cases e), enabled := fun _ => enabled, counts := fun _ => ?_ }
      constructor
      · show (s.area (s.agent k).area).writeOccupied = unitsHeld _ _ (s.lane k).slots
        rw [empty]
        exact occupied
      · show (s.area (s.agent k).area).readReserved = unitsHeld _ _ (s.lane k).slots
        rw [empty]
        exact reserved
      · show (s.area (s.agent k).area).readFilled = unitsHeld _ _ (s.lane k).slots
        rw [empty]
        exact filled
      · show (s.area (s.agent k).area).writeOccupied + (s.lane k).credit ≤ (s.area (s.agent k).area).row.writeUnits
        omega
      · show (s.area (s.agent k).area).readReserved + (s.area (s.agent k).area).readFilled
          ≤ (s.area (s.agent k).area).row.readUnits
        omega
    · rw [updLane_lane_ne s _ e]
      exact h.lane k
  · refine h.idle a fun k joined => ?_
    have ne : k ≠ l := fun e => joined (e ▸ detached)
    exact idle k (by rw [updLane_lane_ne s _ ne]; exact joined)
  · exact h.waiters.of_lane rfl (fun k hk => updLane_lane_ne s _ hk) fun p _ _ stands => by
      rw [updLane_lane_self]; exact stands
  · exact h.ids.of_lane (fun k hk => updLane_lane_ne s _ hk) (fun _ _ => id) fun i y _ _ stands => by
      rw [updLane_lane_self]; exact stands

theorem countDown_piece? (x : IdState) : x.countDown.piece? = x.piece? := by
  cases x with
  | inUse owner n txn => cases owner <;> rfl
  | free => rfl
  | quarantined => rfl

end AccountKept

theorem stepRel_accountKept : StepRel AccountKept where
  refl := AccountKept.refl
  trans _ _ _ := AccountKept.trans
  queue _ _ := .of_same rfl rfl rfl rfl rfl rfl
  engine _ _ := .of_same rfl rfl rfl rfl rfl rfl
  faults _ _ := .of_same rfl rfl rfl rfl rfl rfl
  windows _ _ := .of_same rfl rfl rfl rfl rfl rfl
  portRow _ _ := .of_same rfl rfl rfl rfl rfl rfl
  link _ _ kept := .of_same rfl rfl rfl rfl rfl kept
  suspend := AccountKept.suspendLane
  resume _ _ := AccountKept.resume
  immediate l _ _ item := AccountKept.immediate l item
  openAnswered l tag s joined := AccountKept.openAnswered tag (by rcases joined with e | e <;> rw [e] <;> decide)
  silenceNew := AccountKept.silenceNew
  closeDrain := AccountKept.closeDrain
  accept _ _ := AccountKept.accept
  agentRow _ _ _ := AccountKept.setAgent
  areaRow _ _ _ := AccountKept.areaRow
  class_ _ _ _ _ := .of_same rfl rfl rfl rfl rfl rfl
  invalidate sc s := .of_xlat rfl rfl rfl rfl rfl (IndexKept.of_sublist (invalidateScope_lists sc s).1)
    (by rw [(invalidateScope_lists sc s).2]) id
  finalChange := AccountKept.finalChange
  grant := AccountKept.grant
  response := AccountKept.memoryResponse
  timeout := AccountKept.responseTimeout
  linkLoss := AccountKept.linkLoss
  startNext _ := AccountKept.startNext
  transmissionEnd := AccountKept.transmissionEnd
  count s := .of_ids rfl rfl rfl rfl (fun i => by
    simp only [countAll, State.memId, mapVec_get]
    exact AccountKept.countDown_piece? _) rfl

theorem join_accountKept (l : Lane) (tag : Tag) (identifier : BitVec 64) (s : State) :
    AccountKept s (sessionParcel l (takeJoin l tag identifier) s) := by
  rcases stepRel_accountKept.join_cases l tag identifier s with kept | ⟨u, before, detached, accepts, e⟩
  · exact kept
  · rw [e]
    exact (before.trans (AccountKept.join tag detached ((joinAccepts_iff u l identifier).1 accepts).1)).trans
      (AccountKept.grantRule l _)

end Sys2Proof.Machine

open Sys2Proof Sys2Proof.Machine in
/-- Settles O57, operation by operation: the accounts as a relation that every operation satisfies. -/
theorem theAccountsStayExact : Obligations.TheAccountsStayExact := by
  intro s t h run
  rcases stepRel_accountKept.step run with kept | ⟨straps, rest, _, ran⟩ | ⟨lane, tag, identifier, rest, _, ran⟩
  · exact kept h
  · have t_eq := lineReset_fields ran
    have same : AccountKept State.reset t :=
      AccountKept.of_same (by rw [t_eq]) (by rw [t_eq]) (by rw [t_eq]) (by rw [t_eq]) (by rw [t_eq]) (by rw [t_eq])
    exact same reset_accountLaw
  · rw [← Host.Outcome.next.inj ran]
    exact join_accountKept _ _ _ { s with pending := rest } (stepRel_accountKept.queue s rest h)

end

section
/-! Steady operations: those that leave the management engine and every session, and empty no list, or one lane's alone. -/

namespace Sys2Proof.Machine

/-- A lane's session is the same, but that an ACTIVE one may be SUSPENDED. -/
structure LaneState.SameSession (r p : LaneState) : Prop where
  detached : p.session = .detached ↔ r.session = .detached
  draining : p.session = .draining ↔ r.session = .draining
  drain : p.drain = r.drain

theorem LaneState.SameSession.of_eq {r p : LaneState} (session : p.session = r.session) (drain : p.drain = r.drain) :
    r.SameSession p := ⟨by rw [session], by rw [session], drain⟩

/-- The engine and the sessions are the same, and no list but those of these lanes has become empty. -/
structure SteadyBut (P : Lane → Prop) (s t : State) : Prop where
  mgmt : t.mgmt = s.mgmt
  session : ∀ l, (s.lane l).SameSession (t.lane l)
  slots : ∀ l, ¬P l → (s.lane l).slots ≠ [] → (t.lane l).slots ≠ []

/-- The engine and the sessions are the same, and no list has become empty. -/
abbrev Steady : State → State → Prop := SteadyBut fun _ => False

namespace SteadyBut

variable {P : Lane → Prop} {s t u : State}

theorem of_lanes (mgmt : t.mgmt = s.mgmt) (lanes : t.lanes = s.lanes) : SteadyBut P s t :=
  ⟨mgmt, fun l => by simp only [State.lane, lanes]; exact .of_eq rfl rfl, fun l _ h => by
    simpa only [State.lane, lanes] using h⟩

theorem refl (s : State) : SteadyBut P s s := of_lanes rfl rfl

theorem trans (a : SteadyBut P s t) (b : SteadyBut P t u) : SteadyBut P s u where
  mgmt := b.mgmt.trans a.mgmt
  session l :=
    ⟨(b.session l).detached.trans (a.session l).detached, (b.session l).draining.trans (a.session l).draining,
      (b.session l).drain.trans (a.session l).drain⟩
  slots l h some_ := b.slots l h (a.slots l h some_)

theorem mono {Q : Lane → Prop} (h : SteadyBut P s t) (sub : ∀ l, P l → Q l) : SteadyBut Q s t :=
  ⟨h.mgmt, h.session, fun l hl => h.slots l fun p => hl (sub l p)⟩

theorem updLane (s : State) (l : Lane) {f : LaneState → LaneState} (session : (s.lane l).SameSession (f (s.lane l)))
    (slots : ¬P l → (s.lane l).slots ≠ [] → (f (s.lane l)).slots ≠ []) : SteadyBut P s (s.updLane l f) where
  mgmt := rfl
  session k := by
    by_cases e : k = l
    · subst e; rw [updLane_lane_self]; exact session
    · rw [updLane_lane_ne s f e]; exact .of_eq rfl rfl
  slots k hk some_ := by
    by_cases e : k = l
    · subst e; rw [updLane_lane_self]; exact slots hk some_
    · rw [updLane_lane_ne s f e]; exact some_

/-- A record changed but for its session and its list. -/
theorem updRecord (s : State) (l : Lane) {f : LaneState → LaneState} (session : (f (s.lane l)).session = (s.lane l).session)
    (drain : (f (s.lane l)).drain = (s.lane l).drain) (slots : (f (s.lane l)).slots = (s.lane l).slots) :
    SteadyBut P s (s.updLane l f) := updLane s l (.of_eq session drain) fun _ => by rw [slots]; exact id

theorem updSlot (s : State) (l : Lane) (tag : Tag) (f : Slot → Slot) : SteadyBut P s (s.updSlot l tag f) :=
  updLane s l (.of_eq rfl rfl) fun _ some_ e => some_ (List.map_eq_nil_iff.1 e)

theorem forEach {α : Type} {f : α → State → State} (step : ∀ x s, SteadyBut P s (f x s)) (xs : List α) (s : State) :
    SteadyBut P s (forEach xs f s) := forEach_rel (SteadyBut P) refl (fun _ _ _ => trans) f step xs s

/-! ### Slots -/

theorem grantRule (l : Lane) (s : State) : SteadyBut P s (grantRule l s) := by
  unfold Machine.grantRule
  split
  · exact updRecord s l rfl rfl rfl
  · exact refl s

theorem releaseUnits (l : Lane) (tag : Tag) (gone : HeldUnit → Bool) (s : State) :
    SteadyBut P s (releaseUnits l tag gone s) := by
  unfold Machine.releaseUnits
  split
  · exact refl s
  · have released : SteadyBut P s (s.updSlot l tag fun q => { q with held := q.held.filter fun u => !gone u }) :=
      updSlot s l tag _
    dsimp only
    split
    · refine SteadyBut.trans ?_ (grantRule l _)
      exact released.trans (of_lanes rfl rfl)
    · exact released.trans (of_lanes rfl rfl)

theorem handItem (l : Lane) (x : StreamItem) (s : State) : SteadyBut P s (handItem l x s) := updRecord s l rfl rfl rfl

theorem handAnswer (l : Lane) (s : State) : SteadyBut P s (handAnswer l s) := by
  unfold Machine.handAnswer
  repeat' split
  · exact handItem l _ s
  all_goals exact refl s

theorem stageComplete (l : Lane) (tag : Tag) (st : RespStatus) (q : Slot) (s : State) :
    SteadyBut P s (stageComplete l tag st q s) := by
  refine SteadyBut.trans (updLane s l (f := fun r => (r.leaveIssued q).updSlot tag fun q =>
    { q with stage := .complete, status := some st }) ?_ fun _ some_ e => ?_) (of_lanes rfl rfl)
  · rw [leaveIssued_eq]
    exact .of_eq rfl rfl
  · have := List.map_eq_nil_iff.1 e
    rw [leaveIssued_slots] at this
    exact some_ this

theorem completeSlot (l : Lane) (tag : Tag) (st : RespStatus) (s : State) : SteadyBut P s (completeSlot l tag st s) := by
  cases found : s.slot? l tag with
  | none => unfold Machine.completeSlot; rw [found]; exact refl s
  | some q =>
    rw [completeSlot_eq st found]
    exact ((stageComplete l tag st q s).trans (releaseUnits l tag _ _)).trans (handAnswer l _)

/-- A slot that leaves a list may empty that list alone. -/
theorem dropSlot (l : Lane) (tag : Tag) (s : State) : SteadyBut (· = l) s (s.updLane l fun r => r.dropSlot tag) :=
  updLane s l (.of_eq rfl rfl) fun ne => absurd rfl ne

theorem discardSlot (l : Lane) (tag : Tag) (s : State) : SteadyBut (· = l) s (discardSlot l tag s) := by
  unfold Machine.discardSlot
  split
  · exact refl s
  · have released : SteadyBut (· = l) s (Machine.releaseUnits l tag (fun _ => true) (dropWaiters l tag s)) :=
      SteadyBut.trans (t := dropWaiters l tag s) (of_lanes rfl rfl) (releaseUnits l tag _ _)
    refine released.trans (updLane _ l ?_ fun ne => absurd rfl ne)
    rw [leaveIssued_eq]
    exact .of_eq rfl rfl

theorem freeSlot (l : Lane) (tag : Tag) (s : State) : SteadyBut (· = l) s (freeSlot l tag s) :=
  (releaseUnits l tag _ s).trans (dropSlot l tag _)

/-! ### Translation -/

theorem updPiece (s : State) (p : PieceRef) (f : Piece → Piece) : SteadyBut P s (s.updPiece p f) := updSlot s p.lane p.tag _

theorem takeIndexes (s : State) : SteadyBut P s (takeIndexes s) :=
  forEach (fun _ s => by unfold takeIndex; split <;> exact of_lanes rfl rfl) allWalks s

theorem lookPiece (l : Lane) (q : Slot) (upper : Bool) (index : Nat) (k : Lookups) :
    SteadyBut P k.state (lookPiece l q upper index k).state := by
  unfold Machine.lookPiece
  split
  · exact updPiece _ _ _
  · split <;> exact updPiece _ _ _
  · unfold joinWaiters
    split <;> exact of_lanes rfl rfl

theorem lookPieces (l : Lane) (q : Slot) : ∀ (xs : List (Piece × Bool)) (k : Lookups),
    SteadyBut P k.state (xs.foldl (fun k x => Machine.lookPiece l q x.2 (x.1.entry.getD 0) k) k).state
  | [], _ => refl _
  | _ :: xs, k => (lookPiece l q _ _ k).trans (lookPieces l q xs _)

theorem suspendLane (l : Lane) (s : State) : SteadyBut P s (suspendLane l s) := by
  unfold Machine.suspendLane
  split
  · rename_i active
    rw [beq_iff_eq] at active
    refine updLane _ _ ⟨?_, ?_, rfl⟩ fun _ => id
    all_goals rw [active]; exact Iff.intro (fun e => by cases e) fun e => by cases e
  · exact refl _

theorem report (rep : Report) (s : State) : SteadyBut P s (report rep s) := by
  unfold Machine.report
  dsimp only
  split
  · exact SteadyBut.trans (t := s.withFaults fun u => u.take (s.mgmt.claim == .claimed) s.timebase rep)
      (of_lanes rfl rfl) (suspendLane _ _)
  · exact of_lanes rfl rfl

theorem reportAll (reps : List Report) (s : State) : SteadyBut P s (reportAll reps s) := forEach report reps s

theorem translateSlot (l : Lane) (q : Slot) (s : State) : SteadyBut P s (translateSlot l q s) := by
  unfold Machine.translateSlot
  have looked : SteadyBut P s (Machine.lookPieces l q s).state := lookPieces l q _ ⟨s, none, []⟩
  refine SteadyBut.trans (looked.trans ?_) (reportAll _ _)
  refine SteadyBut.trans ?_ (takeIndexes _)
  split
  · exact completeSlot _ _ _ _
  · exact updSlot _ _ _ _

theorem failWaiter (st : RespStatus) (p : PieceRef) (s : State) : SteadyBut P s (failWaiter st p s) :=
  (updPiece s p _).trans (completeSlot _ _ _ _)

theorem checkWaiters (e : CacheEntry) : ∀ (ws : List PieceRef) (k : State × List Report),
    SteadyBut P k.1 (ws.foldl (fun k p => checkWaiter e p k) k).1
  | [], _ => refl _
  | p :: ws, k => by
    refine SteadyBut.trans ?_ (checkWaiters e ws _)
    show SteadyBut P k.1 (checkWaiter e p k).1
    unfold checkWaiter
    split
    · exact refl _
    · split
      · exact (updPiece _ p _).trans (updSlot _ _ _ _)
      · exact failWaiter _ _ _

theorem failWalk (w : WalkNo) (ws : List PieceRef) (s : State) : SteadyBut P s (failWalk w ws s) :=
  ((of_lanes rfl rfl : SteadyBut P s (s.setWalk w none)).trans (forEach (failWaiter _) _ _)).trans (takeIndexes _)

theorem walkOutcome (w : WalkNo) (o : Outcome) (value : Beat) (address : MemAddr) (s : State) :
    SteadyBut P s (walkOutcome w o value address s).1 := by
  unfold Machine.walkOutcome
  repeat' split
  · exact refl s
  · exact of_lanes rfl rfl
  · exact failWalk _ _ s
  · exact failWalk _ _ s
  · rename_i e _
    exact SteadyBut.trans (t := (s.setWalk w none).withXlat fun t => { t with cache := install e t.cache })
      (of_lanes rfl rfl) ((checkWaiters _ _ (_, [])).trans (takeIndexes _))

/-! ### The memory port -/

theorem fillPiece (l : Lane) (tag : Tag) (upper : Bool) (masks : List (BitVec 8)) (beats : List Beat) (s : State) :
    SteadyBut P s (fillPiece l tag upper masks beats s) := by
  unfold Machine.fillPiece
  repeat' split
  · exact refl s
  · exact refl s
  · exact (updSlot s l tag _).trans (of_lanes rfl rfl)

theorem issuePieces (l : Lane) (q : Slot) (ids : List MemId) (s : State) : SteadyBut P s (issuePieces l q ids s) := by
  unfold Machine.issuePieces
  refine forEach (α := (Piece × Bool) × MemId) (fun x s => ?_) _ _
  unfold issuePiece
  exact (updPiece s _ _).trans (of_lanes rfl rfl)

theorem chargeClass (l : Lane) (dir : Dir) (n : Nat) (s : State) : SteadyBut P s (chargeClass l dir n s).1 := by
  unfold Machine.chargeClass
  dsimp only
  repeat' split
  all_goals exact of_lanes rfl rfl

theorem grantSlot (l : Lane) (q : Slot) (p : MemoryPort) (ids : List MemId) (s : State) :
    SteadyBut P s (grantSlot l q p ids s) := by
  unfold Machine.grantSlot
  dsimp only
  refine SteadyBut.trans (SteadyBut.trans (SteadyBut.trans ?_ (issuePieces _ _ _ _)) (chargeClass _ _ _ _)) (reportAll _ _)
  have issued : SteadyBut P s ((s.withPort fun _ => p).issuedSlot l q.tag) :=
    (of_lanes rfl rfl : SteadyBut P s (s.withPort fun _ => p)).trans
      (updLane _ l (.of_eq rfl rfl) fun _ some_ e => some_ (List.map_eq_nil_iff.1 e))
  split
  · exact (issued.trans (updSlot _ l q.tag _)).trans (of_lanes rfl rfl)
  · exact issued

/-! ### Acceptance -/

theorem enlist (rq : Request) (d : Decoded) (s : State) : SteadyBut P s (enlist rq d s) where
  mgmt := by
    unfold Machine.enlist
    dsimp only
    split <;> rfl
  session l := by
    by_cases e : l = rq.lane
    · subst e
      obtain ⟨q, _, n, lane⟩ := enlist_lane rq d s
      rw [lane]
      exact .of_eq rfl rfl
    · rw [enlist_lane_ne rq d s e]
      exact .of_eq rfl rfl
  slots l _ some_ := by
    by_cases e : l = rq.lane
    · subst e
      rw [(enlist_slots rq d s).1]
      simp
    · rw [enlist_lane_ne rq d s e]
      exact some_

theorem accept (rq : Request) (s : State) : SteadyBut P s (accept rq s) := by
  unfold Machine.accept
  dsimp only
  have first : SteadyBut P s (Machine.enlist rq (s.decode rq) s) := enlist rq _ s
  split
  · exact (first.trans (completeSlot _ _ _ _)).trans (report _ _)
  · exact first.trans (completeSlot _ _ _ _)
  · exact first
  · exact first.trans (translateSlot _ _ _)

/-! ### Transmission -/

theorem startItem (l : Lane) (x : StreamItem) (s : State) : SteadyBut P s (startItem l x s) := by
  unfold Machine.startItem
  repeat' split
  · exact (updSlot s l _ _).trans (of_lanes rfl rfl)
  · exact refl s
  all_goals exact of_lanes rfl rfl

theorem startBelow (s : State) : SteadyBut P s (startBelow s) := by
  unfold Machine.startBelow
  repeat' split
  · exact of_lanes rfl rfl
  · exact (updRecord s _ rfl rfl rfl : SteadyBut P s (s.updLane _ fun r => { r with creditWaiting := none })).trans
      (of_lanes rfl rfl)
  · unfold startStream
    split
    · exact (of_lanes rfl rfl : SteadyBut P s (s.withLink _)).trans (startItem _ _ _)
    · exact refl s
  · exact refl s

theorem startNext (s : State) : SteadyBut P s (startNext s) := by
  unfold Machine.startNext startNotice
  repeat' split
  · exact of_lanes rfl rfl
  · exact of_lanes rfl rfl
  · exact startBelow s
  · exact (of_lanes rfl rfl : SteadyBut P s (s.withFaults _)).trans (startBelow _)

end SteadyBut

end Sys2Proof.Machine
end

section
/-! What RESTART and SESSION RESET wait for: a looser law that every operation keeps, and the test of R171 that tightens it. -/

namespace Sys2Proof.Machine

/-- The laws of RESTART and SESSION RESET, but for what they still wait for, and but for these lanes. -/
structure LooseBut (P : Lane → Prop) (s : State) : Prop where
  op : s.mgmt.stage ≠ .none → ∃ m tag, s.mgmt.op = some ⟨.restart, m, tag, false⟩
  lanes : s.mgmt.stage ≠ .none → ∀ l, P l ∨ (s.lane l).session = .detached
    ∨ ((s.lane l).session = .draining ∧ (s.lane l).drain = .silent)
  memory : s.mgmt.stage = .memory → ∀ l, (s.lane l).session = .detached
  reset : ∀ l m tag, s.mgmt.op = some ⟨.sessionReset l, m, tag, false⟩ →
    (s.lane l).session = .draining ∧ (s.lane l).drain = .silent

abbrev Loose (s : State) : Prop := LooseBut (fun _ => False) s

/-- What RESTART waits for is still there (R171). -/
structure Strict (s : State) : Prop where
  lanes : s.mgmt.stage = .lanes → ∃ l, (s.lane l).session ≠ .detached
  memory : s.mgmt.stage = .memory → ¬s.memoryAtRest

theorem loose_of_laws {s : State} (restart : RestartLaw s) (reset : ResetLaw s) : Loose s ∧ Strict s := by
  obtain ⟨busy, lanes, memory⟩ := restart
  exact ⟨⟨fun h => (busy h).1, fun h l => .inr ((busy h).2 l), fun h => (memory h).1, fun l m tag op => by
    obtain ⟨draining, silent, _⟩ := reset l m tag op
    exact ⟨draining, silent⟩⟩, ⟨lanes, fun h => (memory h).2⟩⟩

theorem laws_of_loose {s : State} (loose : Loose s) (strict : Strict s) (draining : DrainingLaw s) :
    RestartLaw s ∧ ResetLaw s := by
  refine ⟨⟨fun h => ⟨loose.op h, fun l => (loose.lanes h l).resolve_left id⟩, strict.lanes,
    fun h => ⟨loose.memory h, strict.memory h⟩⟩, fun l m tag op => ?_⟩
  obtain ⟨open_, silent⟩ := loose.reset l m tag op
  exact ⟨open_, silent, draining l open_⟩

/-! ### The test of R171 -/

theorem walkNeeds_eq (s : State) (x : Walk) : s.walkNeeds x = if x.index < s.portRow.entryCount then 1 else 0 := rfl

theorem isFree_iff {x : IdState} : x.isFree = true ↔ x = .free := by
  cases x <;> simp [IdState.isFree]

theorem isInUse_eq_false_iff {x : IdState} : x.isInUse = false ↔ ∀ owner n txn, x ≠ .inUse owner n txn := by
  cases x with
  | free => simp [IdState.isInUse]
  | quarantined => simp [IdState.isInUse]
  | inUse owner n txn => simp [IdState.isInUse]

/-- No id is FREE exactly when the list of the FREE ones is empty. -/
theorem freeIds_eq_nil_iff {s : State} : s.freeIds = [] ↔ ∀ i, s.memId i ≠ .free := by
  unfold State.freeIds
  rw [List.filter_eq_nil_iff]
  exact ⟨fun h i e => h i (List.mem_finRange i) (isFree_iff.2 e), fun h i _ e => h i (isFree_iff.1 e)⟩

/-- The condition of the final change is that the memory port rests (R171). -/
theorem memoryQuiet_iff {s : State} : s.memoryQuiet = true ↔ s.memoryAtRest := by
  unfold State.memoryQuiet State.memoryAtRest
  rw [Bool.and_eq_true, List.all_eq_true, List.all_eq_true]
  refine and_congr ⟨fun h i owner n txn => ?_, fun h i _ => ?_⟩ ⟨fun h w x walk => ?_, fun h w _ => ?_⟩
  · have := h i (List.mem_finRange i)
    exact isInUse_eq_false_iff.1 (by simpa using this) owner n txn
  · have := isInUse_eq_false_iff.2 (h i)
    simp [this]
  · have := h w (List.mem_finRange w)
    rw [walk] at this
    rw [Bool.and_eq_true, Bool.not_eq_true'] at this
    obtain ⟨ready, few⟩ := this
    have few := of_decide_eq_true few
    rw [walkNeeds_eq] at few
    split at few
    · rename_i inRange
      exact ⟨ready, inRange, freeIds_eq_nil_iff.1 (List.length_eq_zero_iff.1 (by omega))⟩
    · omega
  · split
    · rfl
    · rename_i x walk
      obtain ⟨ready, inRange, none_⟩ := h w x walk
      rw [freeIds_eq_nil_iff.2 none_, walkNeeds_eq, if_pos inRange, ready]
      decide

theorem allDetached_iff {s : State} : s.allDetached = true ↔ ∀ l, (s.lane l).session = .detached := by
  unfold State.allDetached
  rw [List.all_eq_true]
  exact ⟨fun h l => by simpa using h l (List.mem_finRange l), fun h l _ => by simp [h l]⟩

theorem endOp_stage (s : State) : (endOp s).mgmt.stage = s.mgmt.stage := by
  unfold endOp settleOp
  repeat' split
  all_goals rfl

/-- To settle an operation leaves it, or leaves none. -/
theorem settleOp_op {s : State} {o : Operation} (h : (settleOp s).mgmt.op = some o) : s.mgmt.op = some o := by
  unfold settleOp at h
  split at h
  · split at h
    · split at h
      · cases h
      · split at h
        · cases h
        · exact h
    · exact h
  · exact h

/-- The operation in progress has ended, or there is none. -/
theorem endOp_ended (s : State) : ∀ o, (endOp s).mgmt.op = some o → o.ended = true := by
  intro o h
  obtain ⟨p, _, rfl⟩ := Option.map_eq_some_iff.1 (settleOp_op h)
  rfl

theorem finalChange_stage (s : State) : (finalChange s).mgmt.stage = .none := endOp_stage _

/-- Nothing is waited for while no RESTART is in progress and the operation in progress has ended. -/
theorem LooseBut.of_ended {P : Lane → Prop} {s : State} (stage : s.mgmt.stage = .none)
    (ended : ∀ o, s.mgmt.op = some o → o.ended = true) : LooseBut P s :=
  ⟨fun h => absurd stage h, fun h => absurd stage h, (fun h => by rw [stage] at h; cases h), fun l m tag op => by
    have := ended _ op
    cases this⟩

theorem Strict.of_none {s : State} (stage : s.mgmt.stage = .none) : Strict s :=
  ⟨(fun h => by rw [stage] at h; cases h), (fun h => by rw [stage] at h; cases h)⟩

theorem LooseBut.finalChange {P : Lane → Prop} (s : State) : LooseBut P (finalChange s) :=
  .of_ended (finalChange_stage s) (endOp_ended _)

theorem LooseBut.restartMemory {P : Lane → Prop} {s : State} (h : LooseBut P s) : LooseBut P (restartMemory s) := by
  unfold Machine.restartMemory
  split
  · exact .finalChange s
  · exact h

theorem LooseBut.restartProgress {P : Lane → Prop} {s : State} (h : LooseBut P s) : LooseBut P (restartProgress s) := by
  unfold Machine.restartProgress
  split
  · rename_i moved
    rw [Bool.and_eq_true, beq_iff_eq, allDetached_iff] at moved
    have open_ : s.mgmt.stage ≠ .none := by rw [moved.1]; decide
    exact LooseBut.restartMemory ⟨fun _ => h.op open_, fun _ => h.lanes open_, fun _ => moved.2, h.reset⟩
  · exact h.restartMemory

theorem restartMemory_strict {s : State} (lanes : s.mgmt.stage = .lanes → ∃ l, (s.lane l).session ≠ .detached) :
    Strict (restartMemory s) := by
  unfold restartMemory
  split
  · exact .of_none (finalChange_stage s)
  · rename_i working
    refine ⟨lanes, fun stage rest => working ?_⟩
    rw [Bool.and_eq_true, beq_iff_eq]
    exact ⟨stage, memoryQuiet_iff.2 rest⟩

/-- After the test of R171 RESTART waits for what it names. -/
theorem restartProgress_strict (s : State) : Strict (restartProgress s) := by
  unfold restartProgress
  split
  · exact restartMemory_strict fun h => by cases h
  · rename_i stays
    refine restartMemory_strict fun stage => ?_
    by_contra all
    push Not at all
    exact stays (by rw [Bool.and_eq_true, beq_iff_eq]; exact ⟨stage, allDetached_iff.2 all⟩)

/-! ### Steady operations and drains -/

theorem LooseBut.congr {P : Lane → Prop} {s t : State} (h : LooseBut P s) (op : t.mgmt.op = s.mgmt.op)
    (stage : t.mgmt.stage = s.mgmt.stage) (session : ∀ l, (s.lane l).SameSession (t.lane l)) : LooseBut P t := by
  have silent : ∀ l, (s.lane l).session = .draining ∧ (s.lane l).drain = .silent →
      (t.lane l).session = .draining ∧ (t.lane l).drain = .silent := fun l ⟨open_, silent⟩ =>
    ⟨(session l).draining.2 open_, (session l).drain.trans silent⟩
  refine ⟨fun e => ?_, fun e l => ?_, fun e l => ?_, fun l m tag e => ?_⟩
  · rw [op]
    exact h.op (stage ▸ e)
  · exact (h.lanes (stage ▸ e) l).imp_right (Or.imp (session l).detached.2 (silent l))
  · exact (session l).detached.2 (h.memory (stage ▸ e) l)
  · exact silent l (h.reset l m tag (op ▸ e))

theorem LooseBut.steady {P Q : Lane → Prop} {s t : State} (h : LooseBut P s) (same : SteadyBut Q s t) : LooseBut P t :=
  h.congr (by rw [same.mgmt]) (by rw [same.mgmt]) same.session

/-- The memory port and the walk slots are as they were, as far as RESTART looks (R171). -/
structure RestSame (s t : State) : Prop where
  ids : t.port.ids = s.port.ids
  walks : ∀ w, (t.walk w).map (fun x => (x.reading, x.index)) = (s.walk w).map (fun x => (x.reading, x.index))
  row : t.portRow = s.portRow

theorem RestSame.of_same {s t : State} (port : t.port = s.port) (xlat : t.xlat = s.xlat) (row : t.portRow = s.portRow) :
    RestSame s t := ⟨by rw [port], fun w => by rw [walk_congr xlat], row⟩

theorem RestSame.trans {s t u : State} (a : RestSame s t) (b : RestSame t u) : RestSame s u :=
  ⟨b.ids.trans a.ids, fun w => (b.walks w).trans (a.walks w), b.row.trans a.row⟩

theorem RestSame.symm {s t : State} (h : RestSame s t) : RestSame t s :=
  ⟨h.ids.symm, fun w => (h.walks w).symm, h.row.symm⟩

theorem RestSame.atRest {s t : State} (h : RestSame s t) (rest : s.memoryAtRest) : t.memoryAtRest := by
  have id_ : ∀ i, t.memId i = s.memId i := fun i => by simp only [State.memId, h.ids]
  refine ⟨fun i => by rw [id_]; exact rest.1 i, fun w x walk => ?_⟩
  have same := h.walks w
  rw [walk, Option.map_some] at same
  obtain ⟨y, hy, e⟩ := Option.map_eq_some_iff.1 same.symm
  obtain ⟨reading, index⟩ := Prod.mk.inj e
  obtain ⟨ready, inRange, none_⟩ := rest.2 w y hy
  exact ⟨reading ▸ ready, by rw [h.row, ← index]; exact inRange, fun i => by rw [id_]; exact none_ i⟩

theorem Strict.congr {s t : State} (h : Strict s) (stage : t.mgmt.stage = s.mgmt.stage)
    (session : ∀ l, (s.lane l).SameSession (t.lane l)) (rest : RestSame s t) : Strict t := by
  refine ⟨fun e => ?_, fun e r => h.memory (stage ▸ e) (rest.symm.atRest r)⟩
  obtain ⟨l, hl⟩ := h.lanes (stage ▸ e)
  exact ⟨l, fun away => hl ((session l).detached.1 away)⟩

/-- What RESTART and SESSION RESET wait for is kept: the looser law, and with it the tight one. -/
structure WaitKept (s t : State) : Prop where
  loose : ∀ P, LooseBut P s → LooseBut P t
  strict : Strict s → Strict t

namespace WaitKept

theorem refl (s : State) : WaitKept s s := ⟨fun _ => id, id⟩

theorem trans {s t u : State} (a : WaitKept s t) (b : WaitKept t u) : WaitKept s u :=
  ⟨fun P h => b.loose P (a.loose P h), fun h => b.strict (a.strict h)⟩

theorem steady {P : Lane → Prop} {s t : State} (same : SteadyBut P s t) (rest : RestSame s t) : WaitKept s t :=
  ⟨fun _ h => h.steady same, fun h => h.congr (by rw [same.mgmt]) same.session rest⟩

/-- The engine changes but for its operation and its stage. -/
theorem engine {s t : State} (op : t.mgmt.op = s.mgmt.op) (stage : t.mgmt.stage = s.mgmt.stage)
    (lanes : t.lanes = s.lanes) (rest : RestSame s t) : WaitKept s t := by
  have session : ∀ l, (s.lane l).SameSession (t.lane l) := fun l => by
    simp only [State.lane, lanes]; exact .of_eq rfl rfl
  exact ⟨fun _ h => h.congr op stage session, fun h => h.congr stage session rest⟩

theorem forEach {α : Type} {f : α → State → State} (step : ∀ x s, WaitKept s (f x s)) (xs : List α) (s : State) :
    WaitKept s (forEach xs f s) := forEach_rel WaitKept refl (fun _ _ _ => trans) f step xs s

theorem restartMemory (s : State) : WaitKept s (restartMemory s) :=
  ⟨fun _ h => h.restartMemory, fun h => restartMemory_strict h.lanes⟩

theorem restartProgress (s : State) : WaitKept s (restartProgress s) :=
  ⟨fun _ h => h.restartProgress, fun _ => restartProgress_strict s⟩

/-- A change that ends with the test of R171 needs the looser law alone. -/
theorem tested {s t : State} (loose : ∀ P, LooseBut P s → LooseBut P t) : WaitKept s (Machine.restartProgress t) :=
  ⟨fun P h => (loose P h).restartProgress, fun _ => restartProgress_strict t⟩

theorem enterDetached (l : Lane) (s : State) : WaitKept s (enterDetached l s) := by
  have detached : ∀ P, LooseBut P s → s.notAwaited l → LooseBut P (s.updLane l LaneState.detach) := by
    intro P h free
    refine ⟨h.op, fun e k => ?_, fun e k => ?_, fun k m tag op => ?_⟩
    · by_cases same : k = l
      · subst same; rw [updLane_lane_self]; exact .inr (.inl rfl)
      · rw [updLane_lane_ne s _ same]; exact h.lanes e k
    · by_cases same : k = l
      · subst same; rw [updLane_lane_self]; rfl
      · rw [updLane_lane_ne s _ same]; exact h.memory e k
    · have other : k ≠ l := fun e => by
        have := free _ op (by rw [e])
        cases this
      rw [updLane_lane_ne s _ other]
      exact h.reset k m tag op
  unfold Machine.enterDetached
  dsimp only
  refine tested fun P h => ?_
  split
  · rename_i waits
    refine .of_ended ?_ (endOp_ended _)
    rw [endOp_stage]
    by_contra stage
    obtain ⟨m, tag, op⟩ := h.op stage
    have waits : (s.mgmt.op.any fun o => o.kind == .sessionReset l && !o.ended) = true := waits
    rw [op] at waits
    simp at waits
  · rename_i waits
    have free : (s.updLane l LaneState.detach).resetWaits l = false := by simpa using waits
    exact detached P h (resetWaits_eq_false.1 free)

theorem closeDrain (l : Lane) (s : State) : WaitKept s (closeDrain l s) := by
  unfold Machine.closeDrain
  split
  · exact enterDetached l s
  · exact refl s

/-- An ended operation handed its reply leaves what is waited for. -/
theorem settleOp (s : State) : WaitKept s (settleOp s) := by
  unfold Machine.settleOp
  split
  · rename_i o op
    split
    · rename_i ended
      have gone : ∀ f : Mgmt → Mgmt, (f s.mgmt).stage = s.mgmt.stage → (f s.mgmt).op = none →
          WaitKept s (s.withMgmt f) := by
        intro f stage none_
        refine ⟨fun P h => .of_ended ?_ (fun p hp => by rw [withMgmt_mgmt, none_] at hp; cases hp), fun h => ?_⟩
        · rw [withMgmt_mgmt, stage]
          by_contra e
          obtain ⟨m, tag, busy⟩ := h.op e
          rw [op] at busy
          cases busy
          exact absurd ended Bool.false_ne_true
        · exact h.congr stage (fun l => .of_eq rfl rfl) (.of_same rfl rfl rfl)
      split
      · exact gone _ rfl rfl
      · split
        · exact gone _ rfl rfl
        · exact refl s
    · exact refl s
  · exact refl s

end WaitKept

end Sys2Proof.Machine
end

section
/-! What RESTART and SESSION RESET wait for, under the events of the part. -/

namespace Sys2Proof.Machine

/-- The commands that another lane's list does not see: a list once not empty stays so, but for the lanes of a drain. -/
theorem discardSlot_rest (l : Lane) (tag : Tag) (s : State) : RestSame s (discardSlot l tag s) := by
  unfold discardSlot
  split
  · exact .of_same rfl rfl rfl
  · obtain ⟨xlat, port⟩ := releaseUnits_frame l tag (fun _ => true) (dropWaiters l tag s)
    have row := (releaseUnits_inner l tag (fun _ => true) (dropWaiters l tag s)).portRow
    refine ⟨by rw [updLane_port, port]; rfl, fun w => ?_, by rw [updLane_portRow, row]; rfl⟩
    rw [updLane_walk, walk_congr xlat, dropWaiters_walk]
    cases s.walk w <;> rfl

theorem freeSlot_rest (l : Lane) (tag : Tag) (s : State) : RestSame s (freeSlot l tag s) := by
  obtain ⟨xlat, port⟩ := releaseUnits_frame l tag (fun _ => true) s
  exact .of_same port xlat (freeSlot_inner l tag s).portRow

theorem handAnswer_rest (l : Lane) (s : State) : RestSame s (handAnswer l s) :=
  .of_same (handAnswer_port l s) (handAnswer_xlat l s) (handAnswer_inner l s).portRow

theorem report_rest (rep : Report) (s : State) : RestSame s (report rep s) := by
  obtain ⟨_, _, _, _, _, _, row, xlat, _, _, _, port, _⟩ := report_fields rep s
  exact .of_same port xlat row

theorem startItem_rest (l : Lane) (x : StreamItem) (s : State) : RestSame s (startItem l x s) := by
  unfold startItem
  repeat' split
  all_goals exact .of_same rfl rfl rfl

theorem startBelow_rest (s : State) : RestSame s (startBelow s) := by
  unfold startBelow
  repeat' split
  · exact .of_same rfl rfl rfl
  · exact .of_same rfl rfl rfl
  · unfold startStream
    split
    · exact RestSame.trans (t := s.withLink _) (.of_same rfl rfl rfl) (startItem_rest _ _ _)
    · exact .of_same rfl rfl rfl
  · exact .of_same rfl rfl rfl

theorem startNext_rest (s : State) : RestSame s (startNext s) := by
  unfold startNext startNotice
  repeat' split
  · exact .of_same rfl rfl rfl
  · exact .of_same rfl rfl rfl
  · exact startBelow_rest s
  · exact RestSame.trans (t := s.withFaults _) (.of_same rfl rfl rfl) (startBelow_rest _)

namespace WaitKept

theorem discardSlot (l : Lane) (tag : Tag) (s : State) : WaitKept s (discardSlot l tag s) :=
  steady (SteadyBut.discardSlot l tag s) (discardSlot_rest l tag s)

theorem report (rep : Report) (s : State) : WaitKept s (report rep s) :=
  steady (P := fun _ => False) (SteadyBut.report rep s) (report_rest rep s)

theorem reportAll (reps : List Report) (s : State) : WaitKept s (reportAll reps s) := forEach report reps s

theorem afterLeaving (l : Lane) (s : State) : WaitKept s (afterLeaving l s) :=
  (steady (P := fun _ => False) (SteadyBut.handAnswer l s) (handAnswer_rest l s)).trans (closeDrain l _)

/-! ### Drains -/

/-- A joined lane's drain becomes SILENT: the lane needs no exception any more. -/
theorem silenced_loose {P : Lane → Prop} {l : Lane} {s : State} (started : Bool) (joined : (s.lane l).session ≠ .detached)
    (h : LooseBut P s) : LooseBut (fun k => P k ∧ k ≠ l) (s.updLane l (LaneState.silenced started)) := by
  refine ⟨h.op, fun e k => ?_, fun e => absurd (h.memory e l) joined, fun k m tag op => ?_⟩
  · by_cases same : k = l
    · subst same; rw [updLane_lane_self]; exact .inr (.inr ⟨rfl, rfl⟩)
    · rw [updLane_lane_ne s _ same]
      exact (h.lanes e k).imp_left fun p => ⟨p, same⟩
  · by_cases same : k = l
    · subst same; rw [updLane_lane_self]; exact ⟨rfl, rfl⟩
    · rw [updLane_lane_ne s _ same]; exact h.reset k m tag op

/-- What follows the change of a lane's drain to SILENT. -/
theorem afterSilenced (l : Lane) (s : State) :
    WaitKept (s.updLane l (LaneState.silenced (s.streamStarted l))) (silence l s) :=
  (forEach (discardSlot l) _ _).trans (closeDrain l _)

theorem silence_loose {P : Lane → Prop} {l : Lane} {s : State} (joined : (s.lane l).session ≠ .detached)
    (h : LooseBut P s) : LooseBut (fun k => P k ∧ k ≠ l) (silence l s) :=
  (afterSilenced l s).loose _ (silenced_loose _ joined h)

theorem silence {l : Lane} {s : State} (joined : (s.lane l).session ≠ .detached) : WaitKept s (silence l s) := by
  refine ⟨fun P h => ?_, fun h => (afterSilenced l s).strict ⟨fun _ => ⟨l, ?_⟩, fun e => ?_⟩⟩
  · obtain ⟨op, lanes, memory, reset⟩ := silence_loose joined h
    exact ⟨op, fun e k => (lanes e k).imp_left (·.1), memory, reset⟩
  · rw [updLane_lane_self]
    exact fun e => by cases e
  · exact fun rest => h.memory e (RestSame.atRest (s := s.updLane l _) (.of_same rfl rfl rfl) rest)

theorem silenceJoined (l : Lane) (s : State) : WaitKept s (silenceJoined l s) := by
  unfold Machine.silenceJoined
  split
  · exact refl s
  · rename_i joined
    exact silence fun e => joined (by rw [e]; rfl)

/-- A lane goes SILENT if it is not already, or stays DETACHED: it needs no exception any more. -/
theorem silenceNew_loose {P : Lane → Prop} {l : Lane} {s : State} (drains : DrainLaw s) (h : LooseBut P s) :
    LooseBut (fun k => P k ∧ k ≠ l) (silenceNew l s) := by
  unfold Machine.silenceNew
  split
  · rename_i still
    refine ⟨h.op, fun e k => ?_, h.memory, h.reset⟩
    by_cases same : k = l
    · subst same
      rw [Bool.or_eq_true, beq_iff_eq, beq_iff_eq] at still
      rcases still with away | silent
      · exact .inr (.inl away)
      · exact .inr (.inr ⟨(drains k).1.2 (by rw [silent]; decide), silent⟩)
    · exact (h.lanes e k).imp_left fun p => ⟨p, same⟩
  · rename_i joined
    exact silence_loose (fun e => joined (by rw [e]; rfl)) h

/-- Every lane goes SILENT in turn. -/
theorem silenceAll_loose : ∀ (ls : List Lane) {s : State}, DrainLaw s → LooseBut (· ∈ ls) s →
    Loose (Machine.forEach ls silenceNew s)
  | [], _, _, h => ⟨h.op, fun e k => (h.lanes e k).imp_left (List.not_mem_nil), h.memory, h.reset⟩
  | l :: ls, s, drains, h => by
    obtain ⟨op, lanes, memory, reset⟩ := silenceNew_loose (l := l) drains h
    refine silenceAll_loose ls (ListsKept.drain (.of_inner (silenceNew_inner l s)) drains)
      ⟨op, fun e k => (lanes e k).imp_left fun ⟨mem, ne⟩ => ?_, memory, reset⟩
    exact (List.mem_cons.1 mem).resolve_left ne

/-! ### Outcomes and grants -/

theorem settleSlot_loose {P : Lane → Prop} {s : State} (l : Lane) (tag : Tag) (h : LooseBut P s) :
    LooseBut P (settleSlot l tag s) := by
  unfold settleSlot
  repeat' split
  · exact h
  · exact (afterLeaving l _).loose P (h.steady (SteadyBut.discardSlot l tag s))
  · exact h.steady (SteadyBut.completeSlot (P := fun _ => False) l tag _ s)
  · exact h

theorem handOutcome_loose {P : Lane → Prop} {s : State} (owner : Owner) (o : Outcome) (txn : Transaction)
    (beats : List Beat) (h : LooseBut P s) : LooseBut P (handOutcome owner o txn beats s).1 := by
  unfold handOutcome pieceOutcome
  split
  · rename_i ref
    refine settleSlot_loose _ _ ?_
    have first : LooseBut P (s.updPiece ref fun p => { p with status := o.pieceStatus, memId := none }) :=
      h.steady (SteadyBut.updPiece (P := fun _ => False) s ref _)
    repeat' split
    · exact first.steady (SteadyBut.fillPiece (P := fun _ => False) _ _ _ _ _ _)
    · exact first
    · exact first
  · exact h.steady ((SteadyBut.of_lanes rfl rfl : SteadyBut (fun _ => False) s (s.useFree 1)).trans
      (SteadyBut.walkOutcome _ _ _ _ _))

theorem endTransaction (i : MemId) (x : IdState) (owner : Owner) (o : Outcome) (txn : Transaction) (beats : List Beat)
    (s : State) : WaitKept s (endTransaction i x owner o txn beats s) :=
  tested fun P h => by
    have freed : LooseBut P (s.setId i x) := h.steady (SteadyBut.of_lanes (P := fun _ => False) rfl rfl)
    exact (handOutcome_loose owner o txn beats freed).steady (SteadyBut.reportAll (P := fun _ => False) _ _)

theorem memoryResponse (i : MemId) (st : MemStatus) (beats : List Beat) (s : State) :
    WaitKept s (memoryResponse i st beats s) := by
  unfold Machine.memoryResponse
  split
  · exact endTransaction _ _ _ _ _ _ s
  · refine tested fun P h => ?_
    have freed : LooseBut P (s.setId i .free) := h.steady (SteadyBut.of_lanes (P := fun _ => False) rfl rfl)
    exact freed.steady (SteadyBut.report (P := fun _ => False) _ _)
  · exact report _ s

theorem responseTimeout (i : MemId) (s : State) : WaitKept s (responseTimeout i s) := by
  unfold Machine.responseTimeout
  split
  · exact endTransaction _ _ _ _ _ _ s
  all_goals exact refl s

theorem grantWalk (w : WalkNo) (x : Walk) (ids : List MemId) (s : State) : WaitKept s (grantWalk w x ids s) := by
  unfold Machine.grantWalk
  split
  · split
    · rename_i i _
      have same : SteadyBut (fun _ => False) s ((s.setWalk w (some { x with reading := true })).setId i
          (.inUse (.walk w) s.portRow.timeout ⟨.read, s.portRow.entryAddress x.index, [0xFF#8], []⟩)) := .of_lanes rfl rfl
      refine ⟨fun _ h => h.steady same, fun h => ⟨h.lanes, fun _ rest => rest.1 i (.walk w) s.portRow.timeout
        ⟨.read, s.portRow.entryAddress x.index, [0xFF#8], []⟩ ?_⟩⟩
      exact setId_memId_self _ i _
    · exact refl s
  · exact tested fun P h =>
      (h.steady (SteadyBut.failWalk (P := fun _ => False) w x.waiters s)).steady
        (SteadyBut.reportAll (P := fun _ => False) _ _)

end WaitKept

/-! ### Every event -/

/-- RESTART and SESSION RESET wait for what they may wait for, again. -/
def StillWaits (s t : State) : Prop := Loose s ∧ Strict s → Loose t ∧ Strict t

namespace StillWaits

theorem of_kept {s t : State} (h : WaitKept s t) : StillWaits s t := fun ⟨loose, strict⟩ =>
  ⟨h.loose _ loose, h.strict strict⟩

theorem refl (s : State) : StillWaits s s := id

theorem trans {s t u : State} (a : StillWaits s t) (b : StillWaits t u) : StillWaits s u := fun h => b (a h)

theorem forEach {α : Type} {f : α → State → State} (step : ∀ x s, StillWaits s (f x s)) (xs : List α) (s : State) :
    StillWaits s (forEach xs f s) := forEach_rel StillWaits refl (fun _ _ _ => trans) f step xs s

/-- Nothing waits while no RESTART is in progress and there is no operation. -/
theorem of_idle {s t : State} (stage : t.mgmt.stage = .none) (op : t.mgmt.op = none) : StillWaits s t := fun _ =>
  ⟨.of_ended stage (fun o h => by rw [op] at h; cases h), .of_none stage⟩

/-- A joined lane that is not DRAINING holds RESTART off, and no SESSION RESET waits on it. -/
theorem stage_of_open {s : State} (h : Loose s) {l : Lane} (joined : (s.lane l).session ≠ .detached)
    (open_ : (s.lane l).session ≠ .draining) : s.mgmt.stage = .none := by
  by_contra e
  rcases h.lanes e l with f | away | ⟨draining, _⟩
  · exact f
  · exact joined away
  · exact open_ draining

/-- A record replaced in a lane that no SESSION RESET waits on, while no RESTART is in progress. -/
theorem updLane_loose {s : State} (h : Loose s) (stage : s.mgmt.stage = .none) {l : Lane}
    (open_ : (s.lane l).session ≠ .draining) (f : LaneState → LaneState) : Loose (s.updLane l f) := by
  refine ⟨fun e => absurd stage e, fun e => absurd stage e, fun e => ?_, fun k m tag op => ?_⟩
  · rw [updLane_mgmt, stage] at e
    cases e
  · have other : k ≠ l := fun e => open_ (e ▸ (h.reset k m tag op).1)
    rw [updLane_lane_ne s f other]
    exact h.reset k m tag op

theorem openAnswered {l : Lane} {s : State} (tag : Tag)
    (active : (s.lane l).session = .active ∨ (s.lane l).session = .suspended) : StillWaits s (openAnswered l tag s) := by
  rintro ⟨loose, _⟩
  have joined : (s.lane l).session ≠ .detached := by rcases active with e | e <;> rw [e] <;> decide
  have open_ : (s.lane l).session ≠ .draining := by rcases active with e | e <;> rw [e] <;> decide
  have stage := stage_of_open loose joined open_
  have completed : ∀ (tags : List Tag) (u : State),
      SteadyBut (fun _ => False) u (Machine.forEach tags (fun tag => completeSlot l tag .cancelled) u) :=
    SteadyBut.forEach fun tag u => SteadyBut.completeSlot l tag _ u
  have opened := updLane_loose loose stage open_ fun r =>
    { r with session := .draining, drain := .answered, closingOwed := some tag }
  unfold Machine.openAnswered
  dsimp only
  have steady := completed
    ((s.updLane l fun r => { r with session := .draining, drain := .answered, closingOwed := some tag }).lane l).unissuedTags
    (s.updLane l fun r => { r with session := .draining, drain := .answered, closingOwed := some tag })
  exact of_kept (WaitKept.closeDrain l _) ⟨opened.steady steady, .of_none (by rw [steady.mgmt]; exact stage)⟩

theorem join {l : Lane} {s : State} (tag : Tag) (stage : s.mgmt.stage = .none)
    (detached : (s.lane l).session = .detached) : StillWaits s (grantRule l (s.updLane l fun r => r.join tag)) := by
  rintro ⟨loose, _⟩
  have joined := updLane_loose loose stage (l := l) (by rw [detached]; decide) fun r => r.join tag
  have steady := SteadyBut.grantRule (P := fun _ => False) l (s.updLane l fun r => r.join tag)
  exact ⟨joined.steady steady, .of_none (by rw [steady.mgmt]; exact stage)⟩

theorem accept {rq : Request} {s : State} (taken : s.refusal rq = none) : StillWaits s (accept rq s) := by
  rintro ⟨loose, _⟩
  have steady := SteadyBut.accept (P := fun _ => False) rq s
  have stage := (restarting_iff s).1 (accepts_of_refusal taken).running
  exact ⟨loose.steady steady, .of_none (by rw [steady.mgmt]; exact stage)⟩

/-- No lane offers a slot while RESTARTING (R20, R130). -/
theorem stage_of_offer {s : State} (h : Loose s) {l : Lane} {q : Slot} (offered : s.offer l = some q) :
    s.mgmt.stage = .none := by
  by_contra e
  unfold State.offer at offered
  dsimp only at offered
  split at offered
  · rename_i may
    rw [Bool.and_eq_true, LaneState.mayOffer, Bool.or_eq_true, Bool.and_eq_true] at may
    simp only [beq_iff_eq] at may
    rcases h.lanes e l with f | away | ⟨draining, silent⟩
    · exact f
    · rw [away] at may; simp at may
    · rw [draining, silent] at may; simp at may
  · cases offered

theorem grant (want : List MemId) (s : State) : StillWaits s (grant want s) := by
  unfold Machine.grant
  split
  · split
    · exact of_kept (WaitKept.grantWalk _ _ _ s)
    · exact refl s
  · split
    · split
      · rename_i l p _ _ q offered
        split
        · rintro ⟨loose, _⟩
          have steady := SteadyBut.grantSlot (P := fun _ => False) l q p (s.pickIds want q.pieces.length) s
          exact ⟨loose.steady steady, .of_none (by rw [steady.mgmt]; exact stage_of_offer loose offered)⟩
        · unfold leaveUngranted
          split
          · exact of_kept (.engine rfl rfl rfl ⟨rfl, fun _ => rfl, rfl⟩)
          · exact refl s
      · exact refl s
    · exact refl s

theorem startNext (s : State) : StillWaits s (startNext s) :=
  of_kept (.steady (P := fun _ => False) (SteadyBut.startNext s) (startNext_rest s))

/-- A change of the link, the time, the faults or a class. -/
theorem of_same {s t : State} (op : t.mgmt.op = s.mgmt.op) (stage : t.mgmt.stage = s.mgmt.stage)
    (lanes : t.lanes = s.lanes) (port : t.port = s.port) (xlat : t.xlat = s.xlat) (row : t.portRow = s.portRow) :
    StillWaits s t := of_kept (.engine op stage lanes (.of_same port xlat row))

theorem endStream (l : Lane) (s : State) : StillWaits s (endStream l s) := by
  unfold Machine.endStream
  split
  · exact refl s
  · rename_i x rest _
    have popped : WaitKept s (s.updLane l fun r => { r with stream := rest }) :=
      .steady (P := fun _ => False) (SteadyBut.updRecord s l rfl rfl rfl) (.of_same rfl rfl rfl)
    refine of_kept (popped.trans ?_)
    unfold endItem
    split
    · exact (WaitKept.steady (SteadyBut.freeSlot l _ _) (freeSlot_rest l _ _)).trans (WaitKept.afterLeaving l _)
    · split
      · exact .steady (P := fun _ => False) (SteadyBut.updRecord _ l rfl rfl rfl) (.of_same rfl rfl rfl)
      · exact .refl _
    all_goals exact .refl _

theorem transmissionEnd (s : State) : StillWaits s (transmissionEnd s) := by
  unfold Machine.transmissionEnd
  split
  · rename_i x _
    refine StillWaits.trans (t := s.withLink fun k => { k with tx := none }) (of_same rfl rfl rfl rfl rfl rfl) ?_
    unfold endSource
    split
    · exact StillWaits.trans (t := State.withMgmt _ fun m => { m with reply := none }) (of_same rfl rfl rfl rfl rfl rfl)
        (of_kept (WaitKept.settleOp _))
    · exact of_same rfl rfl rfl rfl rfl rfl
    · exact of_same rfl rfl rfl rfl rfl rfl
    · exact refl _
    · exact endStream _ _
  · exact refl s

theorem freeCutOff (s : State) : WaitKept s (freeCutOff s) := by
  unfold Machine.freeCutOff
  repeat' split
  · exact .steady (SteadyBut.freeSlot _ _ s) (freeSlot_rest _ _ s)
  all_goals exact .refl s

theorem emptySources (s : State) : WaitKept s (emptySources s) := by
  have session : ∀ l, (s.lane l).SameSession ((Machine.emptySources s).lane l) := fun l => by
    rw [emptySources_lane]; exact .of_eq rfl rfl
  exact ⟨fun _ h => h.congr rfl rfl session, fun h => h.congr rfl session (.of_same rfl rfl rfl)⟩

theorem linkLoss (s : State) : StillWaits s (linkLoss s) :=
  of_kept (((((freeCutOff s).trans (emptySources _)).trans (WaitKept.report _ _)).trans
    (WaitKept.forEach WaitKept.silenceJoined allLanes _)).trans (WaitKept.settleOp _))

theorem countAll (s : State) : StillWaits s (countAll s) := by
  have session : ∀ l, (s.lane l).SameSession ((Machine.countAll s).lane l) := fun _ => .of_eq rfl rfl
  have id_ : ∀ i, (Machine.countAll s).memId i = (s.memId i).countDown := fun i => by
    simp [Machine.countAll, State.memId]
  have back : (Machine.countAll s).memoryAtRest → s.memoryAtRest := fun ⟨none_, walks⟩ => by
    refine ⟨fun i owner n txn e => ?_, fun w x walk => ?_⟩
    · refine none_ i owner (n - 1) txn ?_
      rw [id_, e]
      rfl
    · obtain ⟨ready, inRange, free⟩ := walks w x walk
      refine ⟨ready, inRange, fun i e => free i ?_⟩
      rw [id_, e]
      rfl
  rintro ⟨loose, strict⟩
  exact ⟨loose.congr rfl rfl session, ⟨strict.lanes, fun e rest => strict.memory e (back rest)⟩⟩

theorem expireId (i : MemId) (s : State) : StillWaits s (expireId i s) := by
  unfold Machine.expireId
  split
  · exact of_kept (WaitKept.responseTimeout i s)
  all_goals exact refl s

theorem expireConfirm (s : State) : StillWaits s (expireConfirm s) := by
  unfold Machine.expireConfirm
  split
  · exact of_same (t := unclaim s) rfl rfl rfl rfl rfl rfl
  · exact refl s

theorem expireClass (c : ClassNo) (s : State) : StillWaits s (expireClass c s) := by
  unfold Machine.expireClass
  exact of_same rfl rfl rfl rfl rfl rfl

theorem tick (s : State) : StillWaits s (tick s) := by
  unfold Machine.tick
  exact (((countAll s).trans (expireConfirm _)).trans (forEach expireId allIds _)).trans
    (forEach expireClass allClasses _)

end StillWaits

end Sys2Proof.Machine
end

section
/-! What every step keeps of the lanes that drain: a DRAINING lane has a slot in its list. -/

namespace Sys2Proof.Machine

/-- A DRAINING lane has a slot in its list, but for these lanes. -/
def DrainingBut (P : Lane → Prop) (s : State) : Prop :=
  ∀ l, ¬P l → (s.lane l).session = .draining → (s.lane l).slots ≠ []

theorem drainingBut_false {s : State} : DrainingBut (fun _ => False) s ↔ DrainingLaw s :=
  ⟨fun h l => h l id, fun h l _ => h l⟩

theorem DrainingBut.steady {P Q : Lane → Prop} {s t : State} (h : DrainingBut P s) (same : SteadyBut Q s t) :
    DrainingBut (fun l => P l ∨ Q l) t := fun l hl open_ =>
  same.slots l (fun q => hl (.inr q)) (h l (fun p => hl (.inl p)) ((same.session l).draining.1 open_))

/-- To close a lane's drain makes up for the lane. -/
theorem DrainingBut.closeDrain {P : Lane → Prop} {l : Lane} {s : State} (h : DrainingBut (fun k => P k ∨ k = l) s) :
    DrainingBut (fun k => P k ∧ k ≠ l) (closeDrain l s) := by
  intro k hk
  by_cases same : k = l
  · subst same
    exact (closeDrain_lanes k s).1
  · rw [(closeDrain_lanes l s).2 k same]
    exact h k fun or_ => or_.elim (fun p => hk ⟨p, same⟩) same

/-- To change one lane's record and close its drain keeps what the other lanes keep. -/
theorem DrainingBut.updLane {P : Lane → Prop} {s : State} (h : DrainingBut P s) (l : Lane) (f : LaneState → LaneState) :
    DrainingBut (fun k => P k ∨ k = l) (s.updLane l f) := by
  intro k hk
  rw [updLane_lane_ne s f fun e => hk (.inr e)]
  exact h k fun p => hk (.inl p)

theorem DrainingBut.mono {P Q : Lane → Prop} {s : State} (h : DrainingBut P s) (sub : ∀ l, P l → Q l) : DrainingBut Q s :=
  fun l hl => h l fun p => hl (sub l p)

/-- The law of the draining lanes holds again. -/
def DrainingKept (s t : State) : Prop := DrainingLaw s → DrainingLaw t

namespace DrainingKept

theorem refl (s : State) : DrainingKept s s := id

theorem trans {s t u : State} (a : DrainingKept s t) (b : DrainingKept t u) : DrainingKept s u := fun h => b (a h)

theorem of_lanes {s t : State} (lanes : t.lanes = s.lanes) : DrainingKept s t := fun h l => by
  simpa only [State.lane, lanes] using h l

theorem of_lane {s t : State} (lane : ∀ l, t.lane l = s.lane l) : DrainingKept s t := fun h l => by
  rw [lane l]
  exact h l

theorem steady {s t : State} (same : Steady s t) : DrainingKept s t := fun h l open_ =>
  same.slots l id (h l ((same.session l).draining.1 open_))

theorem forEach {α : Type} {f : α → State → State} (step : ∀ x s, DrainingKept s (f x s)) (xs : List α) (s : State) :
    DrainingKept s (forEach xs f s) := forEach_rel DrainingKept refl (fun _ _ _ => trans) f step xs s

/-- What empties one lane's list alone, and then closes its drain. -/
theorem closing {l : Lane} {s t : State} (same : SteadyBut (· = l) s t) : DrainingKept s (closeDrain l t) := fun h =>
  drainingBut_false.1 (((drainingBut_false.2 h).steady same).closeDrain.mono fun _ ⟨f, _⟩ => f)

theorem leaving {l : Lane} {s t : State} (same : SteadyBut (· = l) s t) : DrainingKept s (afterLeaving l t) :=
  closing (same.trans (SteadyBut.handAnswer l t))

/-- A change of one lane's record that ends with its drain closed or not. -/
theorem silence_but {P : Lane → Prop} {l : Lane} {s : State} (h : DrainingBut P s) :
    DrainingBut (fun k => P k ∧ k ≠ l) (silence l s) := by
  have steady : ∀ (tags : List Tag) (u : State), SteadyBut (· = l) u (Machine.forEach tags (discardSlot l) u) :=
    SteadyBut.forEach fun tag u => SteadyBut.discardSlot l tag u
  unfold Machine.silence
  exact (((h.updLane l _).steady (steady _ _)).mono fun _ or_ => or_.elim id .inr).closeDrain

theorem silence (l : Lane) (s : State) : DrainingKept s (silence l s) := fun h =>
  drainingBut_false.1 ((silence_but (drainingBut_false.2 h)).mono fun _ ⟨f, _⟩ => f)

theorem silenceNew (l : Lane) (s : State) : DrainingKept s (silenceNew l s) := by
  unfold Machine.silenceNew
  split
  · exact refl s
  · exact silence l s

theorem silenceJoined_but {P : Lane → Prop} {l : Lane} {s : State} (h : DrainingBut P s) :
    DrainingBut (fun k => P k ∧ k ≠ l) (silenceJoined l s) := by
  unfold Machine.silenceJoined
  split
  · rename_i away
    intro k hk open_
    by_cases same : k = l
    · subst same
      rw [open_] at away
      cases away
    · exact h k (fun p => hk ⟨p, same⟩) open_
  · exact silence_but h

/-- LOSS silences every lane, so each lane's list is nonempty or its drain closed, whatever its list was before. -/
theorem silenceEvery : ∀ (ls : List Lane) {s : State}, DrainingBut (· ∈ ls) s →
    DrainingLaw (Machine.forEach ls silenceJoined s)
  | [], _, h => drainingBut_false.1 (h.mono fun _ mem => List.not_mem_nil mem)
  | l :: ls, _, h => silenceEvery ls ((silenceJoined_but (l := l) h).mono fun _ ⟨mem, ne⟩ =>
      (List.mem_cons.1 mem).resolve_left ne)

theorem linkLoss (s : State) : DrainingKept s (linkLoss s) := fun _ =>
  of_lane (settleOp_lane _) (silenceEvery allLanes fun l none_ => absurd (List.mem_finRange l) none_)

theorem resume {l : Lane} {s : State} : DrainingKept s (grantRule l (s.updLane l fun r => { r with session := .active })) := by
  refine trans (t := s.updLane l fun r => { r with session := .active }) (fun h k open_ => ?_)
    (steady (SteadyBut.grantRule l _))
  by_cases same : k = l
  · subst same
    rw [updLane_lane_self] at open_
    cases open_
  · rw [updLane_lane_ne s _ same] at open_ ⊢
    exact h k open_

theorem join (l : Lane) (tag : Tag) (s : State) : DrainingKept s (grantRule l (s.updLane l fun r => r.join tag)) := by
  refine trans (t := s.updLane l fun r => r.join tag) (fun h k open_ => ?_) (steady (SteadyBut.grantRule l _))
  by_cases same : k = l
  · subst same
    rw [updLane_lane_self] at open_
    cases open_
  · rw [updLane_lane_ne s _ same] at open_ ⊢
    exact h k open_

theorem openAnswered (l : Lane) (tag : Tag) (s : State) : DrainingKept s (openAnswered l tag s) := fun h => by
  have steady : ∀ (tags : List Tag) (u : State),
      Steady u (Machine.forEach tags (fun tag => completeSlot l tag .cancelled) u) :=
    SteadyBut.forEach fun tag u => SteadyBut.completeSlot l tag _ u
  have opened := (drainingBut_false.2 h).updLane l fun r =>
    { r with session := .draining, drain := .answered, closingOwed := some tag }
  unfold Machine.openAnswered
  exact drainingBut_false.1 ((((opened.steady (steady _ _)).mono fun _ or_ =>
    or_.elim id (fun f => .inl f)).closeDrain).mono fun _ ⟨f, _⟩ => f)

theorem settleSlot (l : Lane) (tag : Tag) (s : State) : DrainingKept s (settleSlot l tag s) := by
  unfold Machine.settleSlot
  repeat' split
  · exact refl s
  · exact leaving (SteadyBut.discardSlot l tag s)
  · exact steady (SteadyBut.completeSlot l tag _ s)
  · exact refl s

theorem handOutcome (owner : Owner) (o : Outcome) (txn : Transaction) (beats : List Beat) (s : State) :
    DrainingKept s (handOutcome owner o txn beats s).1 := by
  unfold Machine.handOutcome pieceOutcome
  split
  · rename_i ref
    refine trans ?_ (settleSlot _ _ _)
    have first : Steady s (s.updPiece ref fun p => { p with status := o.pieceStatus, memId := none }) :=
      SteadyBut.updPiece s ref _
    repeat' split
    · exact steady (first.trans (SteadyBut.fillPiece _ _ _ _ _ _))
    · exact steady first
    · exact steady first
  · exact steady (SteadyBut.trans (t := s.useFree 1) (.of_lanes rfl rfl) (SteadyBut.walkOutcome _ _ _ _ _))

theorem endTransaction (i : MemId) (x : IdState) (owner : Owner) (o : Outcome) (txn : Transaction) (beats : List Beat)
    (s : State) : DrainingKept s (endTransaction i x owner o txn beats s) := by
  have freed : DrainingKept s (s.setId i x) := of_lanes rfl
  exact ((freed.trans (handOutcome owner o txn beats _)).trans (steady (SteadyBut.reportAll _ _))).trans
    (of_lane (restartProgress_lane _))

theorem memoryResponse (i : MemId) (st : MemStatus) (beats : List Beat) (s : State) :
    DrainingKept s (memoryResponse i st beats s) := by
  unfold Machine.memoryResponse
  split
  · exact endTransaction _ _ _ _ _ _ s
  · have freed : DrainingKept s (s.setId i .free) := of_lanes rfl
    exact (freed.trans (steady (SteadyBut.report _ _))).trans (of_lane (restartProgress_lane _))
  · exact steady (SteadyBut.report _ s)

theorem responseTimeout (i : MemId) (s : State) : DrainingKept s (responseTimeout i s) := by
  unfold Machine.responseTimeout
  split
  · exact endTransaction _ _ _ _ _ _ s
  all_goals exact refl s

theorem grantWalk (w : WalkNo) (x : Walk) (ids : List MemId) (s : State) : DrainingKept s (grantWalk w x ids s) := by
  unfold Machine.grantWalk
  split
  · split
    · exact of_lanes rfl
    · exact refl s
  · exact (steady ((SteadyBut.failWalk w x.waiters s).trans (SteadyBut.reportAll _ _))).trans
      (of_lane (restartProgress_lane _))

theorem grant (want : List MemId) (s : State) : DrainingKept s (grant want s) := by
  unfold Machine.grant
  split
  · split
    · exact grantWalk _ _ _ s
    · exact refl s
  · split
    · split
      · rename_i l p _ _ q _
        split
        · exact steady (SteadyBut.grantSlot l q p (s.pickIds want q.pieces.length) s)
        · unfold leaveUngranted
          split
          · exact of_lanes rfl
          · exact refl s
      · exact refl s
    · exact refl s

theorem endStream (l : Lane) (s : State) : DrainingKept s (endStream l s) := by
  unfold Machine.endStream
  split
  · exact refl s
  · rename_i x rest _
    have popped : Steady s (s.updLane l fun r => { r with stream := rest }) := SteadyBut.updRecord s l rfl rfl rfl
    refine (steady popped).trans ?_
    unfold endItem
    split
    · exact leaving (SteadyBut.freeSlot l _ _)
    · split
      · exact steady (SteadyBut.updRecord _ l rfl rfl rfl)
      · exact refl _
    all_goals exact refl _

theorem transmissionEnd (s : State) : DrainingKept s (transmissionEnd s) := by
  unfold Machine.transmissionEnd
  split
  · refine trans (t := s.withLink fun k => { k with tx := none }) (of_lanes rfl) ?_
    unfold endSource
    split
    · exact of_lane (settleOp_lane _)
    · exact of_lanes rfl
    · exact of_lanes rfl
    · exact refl _
    · exact endStream _ _
  · exact refl s

end DrainingKept

theorem stepRel_drainingKept : StepRel DrainingKept where
  refl := DrainingKept.refl
  trans _ _ _ := DrainingKept.trans
  queue _ _ := .of_lanes rfl
  engine _ _ := .of_lanes rfl
  faults _ _ := .of_lanes rfl
  windows _ _ := .of_lanes rfl
  portRow _ _ := .of_lanes rfl
  link _ _ _ := .of_lanes rfl
  suspend l s := .steady (SteadyBut.suspendLane l s)
  resume _ _ _ := .resume
  immediate l x s _ := .steady (SteadyBut.handItem l x s)
  openAnswered l tag s _ := .openAnswered l tag s
  silenceNew := .silenceNew
  closeDrain _ s := .closing (SteadyBut.refl s)
  accept rq s _ := .steady (SteadyBut.accept rq s)
  agentRow _ _ _ _ _ := .of_lanes rfl
  areaRow _ _ _ _ := .of_lanes rfl
  class_ _ _ _ _ := .of_lanes rfl
  invalidate _ _ := .of_lanes rfl
  finalChange _ := .of_lane fun _ => endOp_lane _ _
  grant := .grant
  response := .memoryResponse
  timeout := .responseTimeout
  linkLoss := .linkLoss
  startNext s _ := .steady (SteadyBut.startNext s)
  transmissionEnd := .transmissionEnd
  count _ := .of_lanes rfl

/-- The lists of the draining lanes after a JOIN. -/
theorem join_drainingKept (l : Lane) (tag : Tag) (identifier : BitVec 64) (s : State) :
    DrainingKept s (sessionParcel l (takeJoin l tag identifier) s) := by
  rcases stepRel_drainingKept.join_cases l tag identifier s with kept | ⟨u, before, _, _, e⟩
  · exact kept
  · rw [e]
    exact before.trans (.join l tag u)

end Sys2Proof.Machine
end

section
/-! What every step keeps of the manager's role, of a link that is not UP and of the operations in progress (O54). -/

namespace Sys2Proof.Machine

/-- The engine's role is the same, or sound again. -/
theorem RoleLaw.congr {s t : State} (h : RoleLaw s) (claim : t.mgmt.claim = s.mgmt.claim)
    (manager : t.mgmt.manager = s.mgmt.manager) (timer : t.mgmt.confirmTimer = s.mgmt.confirmTimer) : RoleLaw t := by
  unfold RoleLaw
  rw [claim, manager, timer]
  exact h

theorem DownLaw.of_up {t : State} (up : t.linkUp = true) : DownLaw t := fun down => by
  rw [up] at down
  cases down

theorem DownLaw.congr {s t : State} (h : DownLaw s) (mgmt : t.mgmt = s.mgmt) (link : t.link = s.link) : DownLaw t := by
  unfold DownLaw State.linkUp
  rw [mgmt, link]
  exact h

/-- The laws of the role, of the down link and of the operations in progress hold again. -/
structure Sound (s t : State) : Prop where
  role : RoleLaw s → RoleLaw t
  down : DownLaw s → DownLaw t
  waits : DrainLaw s → StillWaits s t
  drain : DrainLaw s → DrainLaw t

namespace Sound

theorem refl (s : State) : Sound s s := ⟨id, id, fun _ => id, id⟩

theorem trans {s t u : State} (a : Sound s t) (b : Sound t u) : Sound s u :=
  ⟨fun h => b.role (a.role h), fun h => b.down (a.down h), fun d => (a.waits d).trans (b.waits (a.drain d)),
    fun h => b.drain (a.drain h)⟩

theorem forEach {α : Type} {f : α → State → State} (step : ∀ x s, Sound s (f x s)) (xs : List α) (s : State) :
    Sound s (forEach xs f s) := forEach_rel Sound refl (fun _ _ _ => trans) f step xs s

theorem of_kept {s t : State} (h : Kept s t) (waits : StillWaits s t) : Sound s t :=
  ⟨fun law => law.congr h.inner.claim h.inner.manager h.inner.confirmTimer, h.downLaw, fun _ => waits,
    fun law l => h.inner.drain l (law l)⟩

theorem of_inner {s t : State} (h : Inner s t) (waits : StillWaits s t) : Sound s t := of_kept h.kept waits

theorem of_mgmt {s t : State} (mgmt : t.mgmt = s.mgmt) (link : t.link = s.link) (lists : ListsKept s t)
    (waits : StillWaits s t) : Sound s t :=
  ⟨fun law => law.congr (by rw [mgmt]) (by rw [mgmt]) (by rw [mgmt]), fun law => law.congr mgmt link, fun _ => waits,
    lists.drain⟩

/-- A change of the fault unit, a class, the queue, or another part that no law names. -/
theorem of_same {s t : State} (mgmt : t.mgmt = s.mgmt) (link : t.link = s.link) (lanes : t.lanes = s.lanes)
    (port : t.port = s.port) (xlat : t.xlat = s.xlat) (row : t.portRow = s.portRow) : Sound s t :=
  ⟨fun law => law.congr (by rw [mgmt]) (by rw [mgmt]) (by rw [mgmt]), fun law => law.congr mgmt link,
    fun _ => .of_same (by rw [mgmt]) (by rw [mgmt]) lanes port xlat row,
    fun law l => by simpa only [State.lane, lanes] using law l⟩

/-- A change of the link's state, its markers or its transmitter. -/
theorem of_link {s : State} (f : LinkPort → LinkPort) (down : DownLaw s → DownLaw (s.withLink f)) : Sound s (s.withLink f) :=
  ⟨id, down, fun _ => .of_same rfl rfl rfl rfl rfl rfl, id⟩

theorem report (rep : Report) (s : State) : Sound s (report rep s) :=
  of_kept (report_kept rep s) (.of_kept (WaitKept.report rep s))

theorem reportAll (reps : List Report) (s : State) : Sound s (reportAll reps s) := forEach report reps s

/-- A claim that ends is UNCLAIMED, without a timer (R157). -/
theorem unclaim {s : State} (pending : s.mgmt.claim = .pending) : Sound s (unclaim s) := by
  refine ⟨fun law => ⟨⟨(fun e => by cases e), fun e => ?_⟩, ⟨(fun e => by cases e), fun e => by cases e⟩⟩, id,
    fun _ => .of_same rfl rfl rfl rfl rfl rfl, id⟩
  have := law.1.2 e
  rw [pending] at this
  cases this

theorem abandonClaim (l : Lane) (s : State) : Sound s (abandonClaim l s) := by
  unfold Machine.abandonClaim
  split
  · rename_i claim
    rw [Bool.and_eq_true, beq_iff_eq] at claim
    exact unclaim claim.1
  · exact refl s

/-! ### Parcels and the link -/

theorem handItem (l : Lane) (x : StreamItem) (s : State) : Sound s (handItem l x s) :=
  of_inner (handItem_inner l x s)
    (.of_kept (.steady (P := fun _ => False) (SteadyBut.handItem l x s) (.of_same rfl rfl rfl)))

theorem sessionParcel (l : Lane) {act : State → State} (run : ∀ s, Sound s (act s)) (s : State) :
    Sound s (sessionParcel l act s) := by
  rcases sessionParcel_cases l act s with e | e | e <;> rw [e]
  · exact refl s
  · exact (abandonClaim l s).trans (report _ _)
  · exact (abandonClaim l s).trans (run _)

theorem takeLeave (l : Lane) (tag : Tag) (number : BitVec 8) (s : State) : Sound s (takeLeave l tag number s) := by
  unfold Machine.takeLeave
  dsimp only
  split
  · exact handItem l _ s
  · split
    · exact handItem l _ s
    · split
      · exact handItem l _ s
      · split
        · exact handItem l _ s
        · rename_i joined open_ _
          refine of_inner (openAnswered_inner l tag s) (.openAnswered tag ?_)
          cases e : (s.lane l).session with
          | detached => exact absurd (by rw [e]; rfl) joined
          | draining => exact absurd (by rw [e]; rfl) open_
          | active => exact .inl rfl
          | suspended => exact .inr rfl

theorem takeJoin (l : Lane) (tag : Tag) (identifier : BitVec 64) (s : State) : Sound s (takeJoin l tag identifier s) := by
  unfold Machine.takeJoin
  split
  · exact handItem l _ s
  · rename_i running
    split
    · exact handItem l _ s
    · rename_i detached
      split
      · have stage := (restarting_iff s).1 (Bool.eq_false_iff.2 running)
        have detached : (s.lane l).session = .detached := by simpa using detached
        have lists := (join_listsLaws (tag := tag) detached).2
        have rule := grantRule_inner l (s.updLane l fun r => r.join tag)
        exact ⟨fun law => RoleLaw.congr (s := s) law rule.claim rule.manager rule.confirmTimer,
          fun law => rule.downLaw law, fun _ => .join tag stage detached, fun law k => rule.drain k (lists law k)⟩
      · exact (handItem l _ s).trans (report _ _)

theorem accept_link (rq : Request) (s : State) : (accept rq s).link = s.link := by
  have listed := (enlist_frame rq (s.decode rq) s).2.2.1
  have completed : ∀ st, (completeSlot rq.lane rq.tag st (enlist rq (s.decode rq) s)).link = s.link := fun st =>
    (completeSlot_inner rq.lane rq.tag st _).link.trans listed
  unfold accept
  dsimp only
  split
  · exact ((report_kept _ _).inner.link).trans (completed _)
  · exact completed _
  · exact listed
  · exact ((translateSlot_kept _ _ _).inner.link).trans listed

theorem requestArrives (rq : Request) (s : State) : Sound s (requestArrives rq s) := by
  unfold Machine.requestArrives
  split
  · exact refl s
  · rename_i notDown
    have up : (Machine.abandonClaim rq.lane s).linkUp = true := by
      have : (Machine.abandonClaim rq.lane s).linkUp = s.linkUp := by
        unfold Machine.abandonClaim
        split <;> rfl
      rw [this]
      simpa using notDown
    refine (abandonClaim rq.lane s).trans ?_
    unfold takeRequest
    split
    · unfold refuse
      dsimp only
      split
      · exact reportAll _ _
      · refine trans (of_link _ fun _ => ?_) (reportAll _ _)
        exact DownLaw.of_up up
    · exact of_mgmt (SteadyBut.accept (P := fun _ => False) rq _).mgmt (accept_link rq _)
        (stepRel_listsKept.accept rq _ ‹_›) (.accept ‹_›)

/-- The laws of the role and of the down link when the sources are emptied (R161, R174). -/
theorem emptySources (s : State) : Sound s (emptySources s) := by
  have waits := StillWaits.of_kept (StillWaits.emptySources s)
  refine ⟨id, fun _ _ => ⟨rfl, rfl, rfl, fun op => ?_⟩, fun _ => waits, (ListsKept.emptySources s).drain⟩
  show (s.mgmt.forfeit || s.mgmt.op.isSome) = true
  rw [show s.mgmt.op.isSome = true from op, Bool.or_true]

theorem settleOp (s : State) : Sound s (settleOp s) :=
  of_inner (settleOp_inner s) (.of_kept (WaitKept.settleOp s))

theorem silenceJoined (l : Lane) (s : State) : Sound s (silenceJoined l s) :=
  of_inner (silenceJoined_inner l s) (.of_kept (WaitKept.silenceJoined l s))

theorem linkLoss (s : State) : Sound s (linkLoss s) := by
  unfold Machine.linkLoss
  have freed : Sound s (freeCutOff s) := of_inner (freeCutOff_inner s) (.of_kept (StillWaits.freeCutOff s))
  exact (((freed.trans (emptySources _)).trans (report _ _)).trans (forEach silenceJoined allLanes _)).trans
    (settleOp _)

theorem signalPresent (s : State) : Sound s (s.withLink signalPresent) := by
  refine of_link _ fun law down => ?_
  have notUp : s.linkUp = false := by
    revert down
    unfold State.linkUp
    simp only [State.withLink, Machine.signalPresent]
    cases state : s.link.state <;> simp [state]
  obtain ⟨tx, refusals, reply, forfeit⟩ := law notUp
  refine ⟨?_, ?_, reply, forfeit⟩
  all_goals
    simp only [State.withLink, Machine.signalPresent]
    split <;> assumption

theorem goodMarker (s : State) : Sound s (s.withLink goodMarker) := by
  refine of_link _ fun law down => ?_
  have notUp : s.linkUp = false := by
    revert down
    unfold State.linkUp
    simp only [State.withLink, Machine.goodMarker]
    cases state : s.link.state <;> simp [state]
  obtain ⟨tx, refusals, reply, forfeit⟩ := law notUp
  refine ⟨?_, ?_, reply, forfeit⟩
  all_goals
    simp only [State.withLink, Machine.goodMarker]
    repeat' split
    all_goals assumption

theorem damagedMarker (s : State) : Sound s (damagedMarker s) := by
  unfold Machine.damagedMarker
  split
  · exact refl s
  · exact of_link _ id
  · rename_i up
    have marked : Sound s (s.withLink fun k => { k with damaged := k.damaged + 1 }) := of_link _ id
    split
    · exact marked.trans (linkLoss _)
    · exact marked

theorem lossOfSignal (s : State) : Sound s (lossOfSignal s) := by
  unfold Machine.lossOfSignal
  split
  · exact refl s
  · rename_i aligning
    exact of_link _ fun law _ => law (by unfold State.linkUp; rw [aligning]; rfl)
  · exact linkLoss s

theorem dropFrame (f : Frame) (s : State) : Sound s (dropFrame f s) := by
  unfold Machine.dropFrame
  split
  · exact report _ s
  · exact report _ s
  · exact refl s

/-! ### Transmission and time -/

theorem startItem_up (l : Lane) (x : StreamItem) (s : State) : (startItem l x s).linkUp = s.linkUp := by
  unfold startItem
  repeat' split
  all_goals rfl

theorem startBelow_up (s : State) : (startBelow s).linkUp = s.linkUp := by
  unfold startBelow
  repeat' split
  · rfl
  · rfl
  · unfold startStream
    split
    · exact startItem_up _ _ _
    · rfl
  · rfl

theorem startNext_up (s : State) : (startNext s).linkUp = s.linkUp := by
  unfold startNext startNotice
  repeat' split
  · rfl
  · rfl
  · exact startBelow_up s
  · exact startBelow_up _

theorem startNext {s : State} (may : s.mayTransmit = true) : Sound s (startNext s) := by
  have same := (SteadyBut.startNext (P := fun _ => False) s).mgmt
  have up : s.linkUp = true := (Bool.and_eq_true _ _ ▸ may : s.linkUp = true ∧ _).1
  exact ⟨fun law => law.congr (by rw [same]) (by rw [same]) (by rw [same]),
    fun _ => .of_up ((startNext_up s).trans up), fun _ => .startNext s, (stepRel_listsKept.startNext s may).drain⟩

theorem endStream_inner (l : Lane) (s : State) : Inner s (Machine.endStream l s) := by
  unfold Machine.endStream
  split
  · exact .refl s
  · rename_i x rest _
    refine (inner_updLane s l (fun r => { r with stream := rest }) ⟨rfl, List.Sublist.refl _, id⟩).trans ?_
    unfold endItem
    split
    · exact (freeSlot_inner l _ _).trans (afterLeaving_inner l _)
    · split
      · exact inner_updLane _ l _ ⟨rfl, List.Sublist.refl _, id⟩
      · exact .refl _
    all_goals exact .refl _

theorem endSource (source : TxSource) (s : State) : Sound s (endSource source s) := by
  unfold Machine.endSource
  split
  · have emptied : Sound s (s.withMgmt fun m => { m with reply := none }) :=
      ⟨id, fun law down => ⟨(law down).1, (law down).2.1, rfl, (law down).2.2.2⟩,
        fun _ => .of_same rfl rfl rfl rfl rfl rfl, id⟩
    exact emptied.trans (settleOp _)
  · exact of_same rfl rfl rfl rfl rfl rfl
  · refine of_link _ fun law down => ?_
    obtain ⟨tx, refusals, rest⟩ := law down
    exact ⟨tx, (congrArg List.tail refusals : _), rest⟩
  · exact refl s
  · exact of_inner (endStream_inner _ s) (.endStream _ s)

theorem transmissionEnd (s : State) : Sound s (transmissionEnd s) := by
  unfold Machine.transmissionEnd
  split
  · have ended : Sound s (s.withLink fun k => { k with tx := none }) :=
      of_link _ fun law down => ⟨rfl, (law down).2⟩
    exact ended.trans (endSource _ _)
  · exact refl s

theorem countAll (s : State) : Sound s (countAll s) := by
  refine ⟨fun law => ⟨law.1, law.2.trans ?_⟩, id, fun _ => .countAll s, id⟩
  show s.mgmt.confirmTimer.isSome = true ↔ (countDown s.mgmt.confirmTimer).isSome = true
  unfold countDown
  rw [Option.isSome_map]

theorem expireConfirm (s : State) : Sound s (expireConfirm s) := by
  unfold Machine.expireConfirm
  split
  · rename_i late
    rw [Bool.and_eq_true, beq_iff_eq] at late
    exact unclaim late.1
  · exact refl s

theorem responseTimeout (i : MemId) (s : State) : Sound s (responseTimeout i s) :=
  of_kept (responseTimeout_kept i s) (.of_kept (WaitKept.responseTimeout i s))

theorem expireId (i : MemId) (s : State) : Sound s (expireId i s) := by
  unfold Machine.expireId
  split
  · exact responseTimeout i s
  all_goals exact refl s

theorem tick (s : State) : Sound s (tick s) := by
  unfold Machine.tick
  refine (((countAll s).trans (expireConfirm _)).trans (forEach expireId allIds _)).trans
    (forEach (fun c s => ?_) allClasses _)
  exact of_same rfl rfl rfl rfl rfl rfl

end Sound

end Sys2Proof.Machine
end

section
/-! What the operations of the manager keep of the role and of the operations in progress, and O54 from what every event keeps. -/

namespace Sys2Proof.Machine

/-- The role, the operation in progress and the stage of RESTART are the same. -/
structure Aside (s t : State) : Prop where
  link : t.link = s.link
  duty : s.mgmt.SameDuty t.mgmt
  drain : DrainLaw s → DrainLaw t

namespace Aside

theorem refl (s : State) : Aside s s := ⟨rfl, ⟨rfl, rfl, rfl, rfl, rfl⟩, id⟩

theorem trans {s t u : State} (a : Aside s t) (b : Aside t u) : Aside s u := by
  obtain ⟨claim, manager, timer, op, stage⟩ := a.duty
  obtain ⟨claim', manager', timer', op', stage'⟩ := b.duty
  exact ⟨b.link.trans a.link, ⟨claim'.trans claim, manager'.trans manager, timer'.trans timer, op'.trans op,
    stage'.trans stage⟩, fun law => b.drain (a.drain law)⟩

theorem of_steady {s t : State} (link : t.link = s.link) (steady : Steady s t) (drain : DrainLaw s → DrainLaw t) :
    Aside s t := ⟨link, by rw [steady.mgmt]; exact ⟨rfl, rfl, rfl, rfl, rfl⟩, drain⟩

end Aside

theorem runRel_aside : RunRel Aside where
  refl := Aside.refl
  trans _ _ _ := Aside.trans
  aside _ _ duty := ⟨rfl, duty, id⟩
  faults s _ := ⟨rfl, (Aside.refl s).duty, id⟩
  windows s _ := ⟨rfl, (Aside.refl s).duty, id⟩
  portRow s _ := ⟨rfl, (Aside.refl s).duty, id⟩
  suspend l s :=
    .of_steady (suspendLane_inner l s).link (SteadyBut.suspendLane l s) (ListsKept.of_inner (suspendLane_inner l s)).drain
  resume l s suspended := by
    have resumed : Aside (s.updLane l fun r => { r with session := .active })
        (grantRule l (s.updLane l fun r => { r with session := .active })) :=
      .of_steady (grantRule_inner l _).link (SteadyBut.grantRule l _) (ListsKept.of_inner (grantRule_inner l _)).drain
    exact ⟨resumed.link, resumed.duty, (ListsKept.resume suspended).drain⟩
  agentRow _ _ s _ _ := ⟨rfl, (Aside.refl s).duty, id⟩
  areaRow _ _ s _ := ⟨rfl, (Aside.refl s).duty, id⟩
  class_ _ _ s _ := ⟨rfl, (Aside.refl s).duty, id⟩
  invalidate _ s := ⟨rfl, (Aside.refl s).duty, id⟩

/-- The engine may execute an operation of its manager (R160). -/
structure State.Ready (s : State) : Prop where
  claimed : s.mgmt.claim = .claimed
  op : s.mgmt.op = none
  stage : s.mgmt.stage = .none

/-- What the operations of the manager keep, while the link is UP. -/
structure Managed (s t : State) : Prop where
  link : t.link = s.link
  role : RoleLaw s → RoleLaw t
  waits : DrainLaw s → StillWaits s t
  drain : DrainLaw s → DrainLaw t

namespace Managed

theorem trans {s t u : State} (a : Managed s t) (b : Managed t u) : Managed s u :=
  ⟨b.link.trans a.link, fun h => b.role (a.role h), fun d => (a.waits d).trans (b.waits (a.drain d)),
    fun h => b.drain (a.drain h)⟩

theorem of_sound {s t : State} (link : t.link = s.link) (h : Sound s t) : Managed s t := ⟨link, h.role, h.waits, h.drain⟩

theorem sound {s t : State} (up : s.linkUp = true) (h : Managed s t) : Sound s t := by
  refine ⟨h.role, fun _ => .of_up ?_, h.waits, h.drain⟩
  unfold State.linkUp
  rw [h.link]
  exact up

theorem of_aside {s t : State} (ready : s.Ready) (h : Aside s t) : Managed s t := by
  obtain ⟨claim, manager, timer, op, stage⟩ := h.duty
  exact ⟨h.link, fun law => law.congr claim manager timer,
    fun _ => .of_idle (stage.trans ready.stage) (op.trans ready.op), h.drain⟩

/-- A change of the reply slot or of the forfeit mark. -/
theorem of_reply {s : State} (f : Mgmt → Mgmt) (duty : s.mgmt.SameDuty (f s.mgmt)) : Managed s (s.withMgmt f) := by
  obtain ⟨claim, manager, timer, op, stage⟩ := duty
  exact ⟨rfl, fun law => law.congr claim manager timer, fun _ => .of_same op stage rfl rfl rfl rfl, id⟩

theorem handReply (rq : MgmtRequest) (st : MgmtStatus) (kw : Word) (ws : List Word) (s : State) :
    Managed s (handReply rq st kw ws s) := of_reply _ ⟨rfl, rfl, rfl, rfl, rfl⟩

theorem replyPlain (rq : MgmtRequest) (st : MgmtStatus) (s : State) : Managed s (replyPlain rq st s) :=
  handReply rq st 0 [] s

theorem report (rep : Report) (s : State) : Managed s (report rep s) :=
  of_sound (report_kept rep s).inner.link (Sound.report rep s)

theorem of_role {s : State} (f : Mgmt → Mgmt) (op : (f s.mgmt).op = s.mgmt.op) (stage : (f s.mgmt).stage = s.mgmt.stage)
    (role : RoleLaw s → RoleLaw (s.withMgmt f)) : Managed s (s.withMgmt f) :=
  ⟨rfl, role, fun _ => .of_same op stage rfl rfl rfl rfl, id⟩

/-- CLAIM begins the pending claim and its timer; CONFIRM ends them with the manager (R156, R158). -/
theorem settleUnclaimed (rq : MgmtRequest) {s : State} (unclaimed : s.mgmt.claim ≠ .claimed) :
    Managed s (settleUnclaimed rq s) := by
  unfold Machine.settleUnclaimed
  split
  · refine (of_role _ rfl rfl fun law => ?_).trans (replyPlain rq .done _)
    have none_ : s.mgmt.manager = none := by
      by_contra some_
      exact unclaimed (law.1.2 (Option.isSome_iff_ne_none.2 some_))
    simp [RoleLaw, none_]
  · split
    · refine (of_role _ rfl rfl fun law => ?_).trans (replyPlain rq .done _)
      simp [RoleLaw]
    · exact replyPlain rq .notReady s

/-- What an operation of the manager comes to keeps the laws, if its execution in a ready state does. -/
theorem takeMgmt (rq : MgmtRequest) (bad : Bool) {run : State → State} (ran : ∀ s, s.Ready → Managed s (run s))
    (s : State) : Sound s (takeMgmt rq bad run s) := by
  have settled : ∀ s : State, Managed s
      (if s.mgmt.reply.isSome then Machine.report { cause := .mgmtRefused, lane := some rq.lane } s
      else if s.mgmt.claim != .claimed then Machine.settleUnclaimed rq s
      else if s.mgmt.manager != some rq.lane then
        Machine.report { cause := .mgmtRefused, lane := some rq.lane } (Machine.replyPlain rq .notManager s)
      else if s.restarting || s.mgmt.op.isSome then Machine.handReply rq .busy (busyWord s) [] s
      else if bad then Machine.replyPlain rq .badValue s
      else run (s.withMgmt fun m => { m with forfeit := false })) := by
    intro s
    split
    · exact report _ s
    · split
      · rename_i unclaimed
        exact settleUnclaimed rq (by simpa using unclaimed)
      · rename_i claimed
        split
        · exact (replyPlain rq .notManager s).trans (report _ _)
        · split
          · exact handReply _ _ _ _ s
          · rename_i idle
            split
            · exact replyPlain _ _ s
            · rw [Bool.or_eq_true, not_or, Bool.not_eq_true, restarting_iff, Option.not_isSome_iff_eq_none] at idle
              refine (of_reply _ ⟨rfl, rfl, rfl, rfl, rfl⟩).trans (ran _ ⟨?_, idle.2, idle.1⟩)
              simpa using claimed
  unfold Machine.takeMgmt
  split
  · exact Sound.refl s
  · rename_i notDown
    have up : s.linkUp = true := by simpa using notDown
    dsimp only
    split
    · exact (settled s).sound up
    · refine ((of_sound ?_ (Sound.abandonClaim rq.lane s)).trans (settled _)).sound up
      unfold Machine.abandonClaim
      split <;> rfl

/-! ### The operations that change the role, and those in progress -/

theorem release (rq : MgmtRequest) {s : State} (ready : s.Ready) : Managed s (release rq s) := by
  refine (of_role _ rfl rfl fun law => ?_).trans (replyPlain rq .done _)
  have none_ : s.mgmt.confirmTimer = none := by
    by_contra some_
    have := law.2.2 (Option.isSome_iff_ne_none.2 some_)
    rw [ready.claimed] at this
    cases this
  simp [RoleLaw, none_]

theorem handover (rq : MgmtRequest) (target : Lane) {s : State} (ready : s.Ready) : Managed s (handover rq target s) := by
  unfold Machine.handover
  split
  · exact replyPlain _ _ s
  · split
    · exact replyPlain _ _ s
    · refine trans (replyPlain rq .done s) ?_
      exact ⟨rfl, fun law => ⟨⟨fun _ => rfl, fun _ => ready.claimed⟩, law.2⟩,
        fun _ => .of_same rfl rfl rfl rfl rfl rfl, id⟩

/-- SESSION RESET waits on a lane that goes DRAINING SILENT, or drains so already (R16). -/
theorem resetLane (l m : Lane) (tag : Tag) {s : State} (ready : s.Ready) (joined : (s.lane l).session ≠ .detached) :
    Managed s (silenceNew l (s.withMgmt fun x => { x with op := some ⟨.sessionReset l, m, tag, false⟩ })) := by
  set t := s.withMgmt fun x => { x with op := some ⟨.sessionReset l, m, tag, false⟩ } with ht
  have inner := silenceNew_inner l t
  have op : ∀ {k : Lane} {n : Lane} {tag' : Tag}, t.mgmt.op = some ⟨.sessionReset k, n, tag', false⟩ → k = l := by
    intro k n tag' e
    injection e with e
    injection e with e
    injection e with e
    exact e.symm
  refine ⟨inner.link, fun law => RoleLaw.congr (s := s) law inner.claim inner.manager inner.confirmTimer,
    fun drains _ => ?_, fun law k => inner.drain k (law k)⟩
  have stage : t.mgmt.stage = .none := ready.stage
  unfold silenceNew
  split
  · rename_i still
    rw [Bool.or_eq_true, beq_iff_eq, beq_iff_eq] at still
    have silent : (s.lane l).drain = .silent := still.resolve_left joined
    refine ⟨⟨fun e => absurd stage e, fun e => absurd stage e, (fun e => by rw [stage] at e; cases e),
      fun k n tag' e => ?_⟩, .of_none stage⟩
    rw [op e]
    exact ⟨(drains l).1.2 (by rw [silent]; decide), silent⟩
  · have silenced : Loose (t.updLane l (LaneState.silenced (t.streamStarted l))) := by
      refine ⟨fun e => absurd stage e, fun e => absurd stage e, (fun e => ?_), fun k n tag' e => ?_⟩
      · rw [updLane_mgmt, stage] at e
        cases e
      · rw [op e, updLane_lane_self]
        exact ⟨rfl, rfl⟩
    have after := WaitKept.afterSilenced l t
    exact ⟨after.loose _ silenced, after.strict (.of_none stage)⟩

theorem sessionReset (rq : MgmtRequest) (l : Lane) {s : State} (ready : s.Ready) : Managed s (sessionReset rq l s) := by
  unfold Machine.sessionReset
  split
  · exact replyPlain _ _ s
  · rename_i joined
    exact resetLane l rq.lane rq.tag ready (by simpa using joined)

end Managed

/-- RESTART in progress, before the lanes are silenced (R171). -/
def State.restartBegun (s : State) (rq : MgmtRequest) : State :=
  (s.withMgmt fun m => { m with op := some ⟨.restart, rq.lane, rq.tag, false⟩, stage := .lanes }).withFaults
    fun f => f.discardNotices (if s.noticeStarted then 1 else 0)

theorem restart_eq (rq : MgmtRequest) (s : State) :
    restart rq s = restartProgress (forEach allLanes silenceNew (s.restartBegun rq)) := rfl

theorem restartBegun_loose (rq : MgmtRequest) (s : State) : LooseBut (· ∈ allLanes) (s.restartBegun rq) := by
  refine ⟨fun _ => ⟨rq.lane, rq.tag, rfl⟩, fun _ l => .inl (List.mem_finRange l), (fun e => ?_), fun l m tag e => ?_⟩
  · have lanes : RestartStage.lanes = .memory := e
    cases lanes
  · have kind : OpKind.restart = .sessionReset l := congrArg Operation.kind (Option.some.inj e)
    cases kind

/-- RESTART begins with every lane silenced (R20, R171). -/
theorem Managed.restart (rq : MgmtRequest) (s : State) : Managed s (restart rq s) := by
  rw [restart_eq]
  have inner := (forEach_inner silenceNew silenceNew_inner allLanes (s.restartBegun rq)).trans (restartProgress_inner _)
  have begun := WaitKept.silenceAll_loose allLanes (s := s.restartBegun rq)
  exact ⟨inner.link, fun law => RoleLaw.congr (s := s.restartBegun rq) law inner.claim inner.manager inner.confirmTimer,
    fun drains _ => ⟨(begun drains (restartBegun_loose rq s)).restartProgress, restartProgress_strict _⟩,
    fun law k => inner.drain k (law k)⟩

/-! ### Every command -/

/-- An operation of the manager that leaves its role and begins no operation in progress. -/
theorem Sound.takeMgmt_aside (rq : MgmtRequest) (bad : Bool) {run : State → State} (ran : ∀ s, Aside s (run s))
    (s : State) : Sound s (takeMgmt rq bad run s) := Managed.takeMgmt rq bad (fun s ready => .of_aside ready (ran s)) s

theorem Sound.exec {c : Instr} (notReset : ∀ straps, c ≠ .lineReset straps) {s t : State}
    (run : exec c s = .next t) : Sound s t := by
  have same : ∀ {u : State}, Sound s u → Host.Outcome.next u = (Host.Outcome.next t : Host.Outcome State Fault Refusal) →
      Sound s t := fun r e => by cases e; exact r
  have a := runRel_aside
  cases c with
  | lineReset straps => exact absurd rfl (notReset straps)
  | join lane tag identifier => exact same (Sound.sessionParcel _ (Sound.takeJoin _ _ _) s) run
  | signalPresent => exact same (Sound.signalPresent s) run
  | goodMarker => exact same (Sound.goodMarker s) run
  | damagedMarker => exact same (Sound.damagedMarker s) run
  | lossOfSignal => exact same (Sound.lossOfSignal s) run
  | parcelDropped frame =>
    refine same ?_ run
    split
    · exact Sound.dropFrame frame s
    · exact Sound.refl s
  | leave lane tag number => exact same (Sound.sessionParcel _ (Sound.takeLeave _ _ _) s) run
  | read lane tag number address length => exact same (Sound.requestArrives _ s) run
  | write lane tag number address length data => exact same (Sound.requestArrives _ s) run
  | claim lane tag => exact same (Sound.takeMgmt_aside _ _ (a.replyPlain _ _) s) run
  | confirm lane tag => exact same (Sound.takeMgmt_aside _ _ (a.replyPlain _ _) s) run
  | confirmTimerExpiry =>
    refine same ?_ run
    split
    · rename_i pending
      rw [Bool.and_eq_true, beq_iff_eq] at pending
      exact Sound.unclaim pending.1
    · exact Sound.refl s
  | release lane tag => exact same (Managed.takeMgmt _ _ (fun _ => Managed.release _) s) run
  | handover lane tag payload => exact same (Managed.takeMgmt _ _ (fun _ => Managed.handover _ _) s) run
  | readRow lane tag payload => exact same (Sound.takeMgmt_aside _ _ (a.readRow _ _) s) run
  | loadRow lane tag payload => exact same (Sound.takeMgmt_aside _ _ (a.loadTable _ _ _ _) s) run
  | loadRowPort lane tag row words => exact same (Sound.takeMgmt_aside _ _ (a.loadPort _ _ _) s) run
  | loadRowAgents lane tag row words => exact same (Sound.takeMgmt_aside _ _ (a.loadAgents _ _ _) s) run
  | loadRowWindows lane tag row words => exact same (Sound.takeMgmt_aside _ _ (a.loadWindows _ _ _) s) run
  | loadRowAreas lane tag row words => exact same (Sound.takeMgmt_aside _ _ (a.loadAreas _ _ _) s) run
  | loadRowClasses lane tag row words => exact same (Sound.takeMgmt_aside _ _ (a.loadClasses _ _ _) s) run
  | loadRowRoutes lane tag row words => exact same (Sound.takeMgmt_aside _ _ (a.loadRoutes _ _ _) s) run
  | commit lane tag => exact same (Sound.takeMgmt_aside _ _ (a.commit _) s) run
  | invalidate lane tag payload => exact same (Sound.takeMgmt_aside _ _ (a.invalidate_ _ _) s) run
  | sessionSuspend lane tag payload => exact same (Sound.takeMgmt_aside _ _ (a.sessionSuspend _ _) s) run
  | sessionResume lane tag payload => exact same (Sound.takeMgmt_aside _ _ (a.sessionResume _ _) s) run
  | sessionReset lane tag payload => exact same (Managed.takeMgmt _ _ (fun _ => Managed.sessionReset _ _) s) run
  | throttleStart lane tag payload => exact same (Sound.takeMgmt_aside _ _ (a.throttleStart _ _) s) run
  | throttleRelease lane tag payload => exact same (Sound.takeMgmt_aside _ _ (a.throttleRelease _ _) s) run
  | readFaults lane tag payload => exact same (Sound.takeMgmt_aside _ _ (a.readFaults _ _) s) run
  | clearFaults lane tag payload => exact same (Sound.takeMgmt_aside _ _ (a.clearFaults _ _) s) run
  | lock lane tag => exact same (Sound.takeMgmt_aside _ _ (a.lock _) s) run
  | restart lane tag => exact same (Managed.takeMgmt _ _ (fun s _ => Managed.restart _ s) s) run
  | status lane tag => exact same (Sound.takeMgmt_aside _ _ (fun s => a.handReply _ _ _ _ s) s) run
  | unknownOperation lane tag code => exact same (Sound.takeMgmt_aside _ _ a.refl s) run
  | grant ids => exact same (Sound.of_kept (grant_kept ids s) (.grant ids s)) run
  | memoryResponse id status beats =>
    exact same (Sound.of_kept (memoryResponse_kept id status beats s) (.of_kept (.memoryResponse id status beats s))) run
  | responseTimeout id => exact same (Sound.responseTimeout id s) run
  | windowEnd cls => exact same (u := s.updClass cls BudgetClass.windowEnd) (.of_same rfl rfl rfl rfl rfl rfl) run
  | slotEnd cls => exact same (u := s.updClass cls BudgetClass.slotEnd) (.of_same rfl rfl rfl rfl rfl rfl) run
  | transmitStart =>
    refine same ?_ run
    split
    · exact Sound.startNext ‹_›
    · exact Sound.refl s
  | transmissionEnd => exact same (Sound.transmissionEnd s) run
  | laneDetached lane => exact same (.of_inner (closeDrain_inner lane s) (.of_kept (.closeDrain lane s))) run
  | finalReplyHanded => exact same (Sound.settleOp s) run
  | restartStageMemory =>
    refine same ?_ run
    split
    · exact Sound.of_inner (restartProgress_inner s) (.of_kept (.restartProgress s))
    · exact Sound.refl s
  | restartFinalChange => exact same (.of_inner (restartMemory_inner s) (.of_kept (.restartMemory s))) run

/-- The laws hold in any state after a LINE_RESET. -/
theorem Sound.lineReset {straps : BitVec 4} {s t : State} (run : Machine.exec (.lineReset straps) s = .next t) : Sound s t := by
  have t_eq := lineReset_fields run
  have stage : t.mgmt.stage = .none := by rw [t_eq]; rfl
  have op : t.mgmt.op = none := by rw [t_eq]; rfl
  refine ⟨fun _ => ?_, fun _ _ => ?_, fun _ => .of_idle stage op, fun _ => ?_⟩
  · rw [t_eq]
    exact ⟨⟨(fun e => by cases e), fun e => by cases e⟩, ⟨(fun e => by cases e), fun e => by cases e⟩⟩
  · rw [t_eq]
    exact ⟨rfl, rfl, rfl, fun e => by cases e⟩
  · intro l
    have lane : t.lane l = State.reset.lane l := by rw [t_eq]; rfl
    rw [lane, reset_lane]
    exact ⟨⟨(fun e => by cases e), fun e => absurd rfl e⟩, ⟨(fun e => by cases e), fun e => by cases e⟩⟩

/-- Every step keeps the laws. -/
theorem Sound.step {s t : State} (run : Machine.step s = .next t) : Sound s t := by
  unfold Machine.step at run
  split at run
  · rename_i c rest _
    refine trans (t := { s with pending := rest }) (of_same rfl rfl rfl rfl rfl rfl) ?_
    cases c with
    | lineReset straps => exact .lineReset run
    | _ => exact .exec (fun _ e => by cases e) run
  · exact Host.Outcome.next.inj run ▸ tick s

/-- Every step keeps the law of the draining lanes. -/
theorem step_drainingLaw {s t : State} (run : step s = .next t) : DrainingKept s t := by
  rcases stepRel_drainingKept.step run with kept | ⟨straps, rest, _, ran⟩ | ⟨lane, tag, identifier, rest, _, ran⟩
  · exact kept
  · intro _ l open_
    have lane : t.lane l = State.reset.lane l := by rw [lineReset_fields ran]; rfl
    rw [lane, reset_lane] at open_
    cases open_
  · rw [← Host.Outcome.next.inj ran]
    exact join_drainingKept _ _ _ { s with pending := rest }

end Sys2Proof.Machine

open Sys2Proof Sys2Proof.Machine in
/-- Settles O54: every event keeps a looser law of the waiting operations, which the test of R171 tightens again. -/
theorem theRoleAndTheDownLinkStaySound : Obligations.TheRoleAndTheDownLinkStaySound := by
  intro s t run
  have sound := Sound.step run
  have drains := step_drainingLaw run
  refine ⟨sound.role, sound.down, drains, fun drain draining restart reset => ?_⟩
  obtain ⟨loose, strict⟩ := sound.waits drain (loose_of_laws restart reset)
  exact laws_of_loose loose strict (drains draining)

end

section
/-! What leaves with the slots that a lane gives up: their units, their waiters, and nothing else outside the lane's record. -/

namespace Sys2Proof.Machine

/-- Units dropped one after another hold nothing. -/
theorem dropped_foldl (us : List Nat) (m : Memory) : Memory.dropped m (us.foldl Memory.dropUnit m) us := by
  induction us generalizing m with
  | nil => exact dropped_nil m
  | cons u us ih =>
    have first : Memory.dropped m (Memory.dropUnit m u) [u] := fun y => by
      by_cases e : y / 64 = u
      · rw [Memory.read_dropUnit_self m e, if_pos (List.mem_singleton.2 e)]
      · rw [Memory.read_dropUnit_ne m e, if_neg fun h => e (List.mem_singleton.1 h)]
    exact dropped_append first (ih _)

theorem length_filter_not_filled (us : List HeldUnit) :
    us.length - (us.filter (·.filled)).length = (us.filter fun u => !u.filled).length := by
  have := List.length_eq_length_filter_add (l := us) (·.filled)
  omega

/-- A slot's units given back are the slot's part of the area's counts (R93, R97). -/
theorem release_eq_without (a : Area) (q : Slot) : a.release q.dir q.held = a.without [q] := by
  unfold Area.release Area.without
  cases dir : q.dir <;> simp [unitsHeld_cons, dir, length_filter_not_filled]

theorem noWaiterOf_iff {s : State} {l : Lane} {tag : Tag} : s.noWaiterOf l tag ↔ s.Unwaited l tag := by
  unfold State.noWaiterOf State.Unwaited State.allWaiters
  constructor
  · rintro ⟨walks, waiting⟩ p hp
    rcases List.mem_append.1 hp with hp | hp
    · obtain ⟨x, hx, hp⟩ := List.mem_flatMap.1 hp
      obtain ⟨w, _, hw⟩ := List.mem_filterMap.1 hx
      exact walks w x hw p hp
    · obtain ⟨e, he, hp⟩ := List.mem_flatMap.1 hp
      exact waiting e he p hp
  · intro h
    refine ⟨fun w x hw p hp => h p (List.mem_append_left _ ?_), fun e he p hp => h p (List.mem_append_right _ ?_)⟩
    · exact List.mem_flatMap.2 ⟨x, List.mem_filterMap.2 ⟨w, List.mem_finRange w, hw⟩, hp⟩
    · exact List.mem_flatMap.2 ⟨e, he, hp⟩

/-- A lane gives up these slots' units; nothing changes but its record, its area, the storage and the waiters of the walks. -/
structure GivesUp (l : Lane) (gone : List Slot) (s t : State) : Prop where
  others : ∀ k, k ≠ l → t.lane k = s.lane k
  area : t.area (s.agent l).area = (s.area (s.agent l).area).without gone
  areas : ∀ b, b ≠ (s.agent l).area → t.area b = s.area b
  staging : Memory.dropped s.staging t.staging (unitsOf gone)
  mgmt : t.mgmt = s.mgmt
  faults : t.faults = s.faults
  link : t.link = s.link
  agents : t.agents = s.agents
  windows : t.windows = s.windows
  classes : t.classes = s.classes
  port : t.port = s.port
  cache : t.xlat.cache = s.xlat.cache
  rest : RestSame s t
  waiters : ∀ p ∈ t.allWaiters, p ∈ s.allWaiters

namespace GivesUp

variable {l : Lane} {s t u : State}

theorem refl (l : Lane) (s : State) : GivesUp l [] s s where
  others _ _ := rfl
  area := rfl
  areas _ _ := rfl
  staging := dropped_nil _
  mgmt := rfl
  faults := rfl
  link := rfl
  agents := rfl
  windows := rfl
  classes := rfl
  port := rfl
  cache := rfl
  rest := .of_same rfl rfl rfl
  waiters _ := id

theorem trans {xs ys : List Slot} (a : GivesUp l xs s t) (b : GivesUp l ys t u) : GivesUp l (xs ++ ys) s u := by
  have agent : t.agent l = s.agent l := by simp only [State.agent, a.agents]
  refine ⟨fun k hk => (b.others k hk).trans (a.others k hk), ?_, fun k hk => ?_, ?_, b.mgmt.trans a.mgmt,
    b.faults.trans a.faults, b.link.trans a.link, b.agents.trans a.agents, b.windows.trans a.windows,
    b.classes.trans a.classes, b.port.trans a.port, b.cache.trans a.cache, a.rest.trans b.rest,
    fun p hp => a.waiters p (b.waiters p hp)⟩
  · rw [area_without_append, ← a.area, ← agent]
    exact b.area
  · exact (b.areas k (by rw [agent]; exact hk)).trans (a.areas k hk)
  · rw [unitsOf, List.flatMap_append]
    exact dropped_append a.staging b.staging

theorem nil_trans {ys : List Slot} (a : GivesUp l [] s t) (b : GivesUp l ys t u) : GivesUp l ys s u := a.trans b

theorem trans_nil {xs : List Slot} (a : GivesUp l xs s t) (b : GivesUp l [] t u) : GivesUp l xs s u := by
  have := a.trans b
  rwa [List.append_nil] at this

/-- The lane's record alone. -/
theorem updLane (s : State) (l : Lane) (f : LaneState → LaneState) : GivesUp l [] s (s.updLane l f) :=
  { refl l s with
    others := fun _ hk => updLane_lane_ne s f hk
    rest := .of_same rfl rfl rfl }

theorem grantRule (l : Lane) (s : State) : GivesUp l [] s (grantRule l s) := by
  unfold Machine.grantRule
  split
  · exact updLane s l _
  · exact refl l s

theorem handAnswer (l : Lane) (s : State) : GivesUp l [] s (handAnswer l s) := by
  rw [handAnswer_eq]
  exact updLane s l _

theorem dropWaiters (l : Lane) (tag : Tag) (s : State) : GivesUp l [] s (dropWaiters l tag s) :=
  { refl l s with
    rest := ⟨rfl, fun w => by rw [dropWaiters_walk]; cases s.walk w <;> rfl, rfl⟩
    waiters := fun _ hp => (mem_dropWaiters.1 hp).1 }

/-- A slot that gives back every unit it holds. -/
theorem releaseUnits {tag : Tag} {q : Slot} (found : s.slot? l tag = some q) {gone : HeldUnit → Bool}
    (all : ∀ u ∈ q.held, gone u = true) : GivesUp l [q] s (releaseUnits l tag gone s) := by
  have every : q.held.filter gone = q.held := List.filter_eq_self.2 all
  have released : GivesUp l [q] s (unitsReleased l tag gone q s) := by
    have area := unitsReleased_area l tag gone q s
    simp only [every, release_eq_without] at area
    obtain ⟨port, classes, mgmt, xlat, link, _, agents, staging⟩ := unitsReleased_fields l tag gone q s
    rw [every] at staging
    refine ⟨fun k hk => ?_, ?_, fun b hb => ?_, ?_, mgmt, rfl, link, agents, rfl, classes, port, by rw [xlat],
      .of_same port xlat rfl, fun p hp => ?_⟩
    · rw [unitsReleased_lane, if_neg hk]
    · rw [area, if_pos rfl]
    · rw [area, if_neg hb]
    · rw [staging]
      have : unitsOf [q] = q.held.map (·.unit) := by simp [unitsOf]
      rw [this]
      exact dropped_foldl _ _
    · rwa [allWaiters_congr xlat] at hp
  rw [releaseUnits_eq gone found]
  split
  · exact released.trans_nil (grantRule l _)
  · exact released

theorem discardSlot {tag : Tag} {q : Slot} (found : s.slot? l tag = some q) : GivesUp l [q] s (discardSlot l tag s) := by
  unfold Machine.discardSlot
  rw [found]
  have held : (Machine.dropWaiters l tag s).slot? l tag = some q := found
  exact ((dropWaiters l tag s).nil_trans (releaseUnits held fun _ _ => rfl)).trans_nil (updLane _ l _)

theorem freeSlot {tag : Tag} {q : Slot} (found : s.slot? l tag = some q) : GivesUp l [q] s (freeSlot l tag s) :=
  (releaseUnits found fun _ _ => rfl).trans_nil (updLane _ l _)

/-- Slots of the same direction and with the same units are given up alike. -/
theorem congr {q p : Slot} (h : GivesUp l [q] s t) (dir : p.dir = q.dir) (held : p.held = q.held) : GivesUp l [p] s t := by
  refine { h with area := ?_, staging := ?_ }
  · rw [← release_eq_without, dir, held, release_eq_without]
    exact h.area
  · have : unitsOf [p] = unitsOf [q] := by simp [unitsOf, held]
    rw [this]
    exact h.staging

/-- A slot completed with a status that keeps none of its units gives them up. -/
theorem completeSlot {tag : Tag} {q : Slot} {st : RespStatus} (found : s.slot? l tag = some q)
    (all : ∀ u ∈ q.held, givesBack q.dir st u = true) : GivesUp l [q] s (completeSlot l tag st s) := by
  rw [completeSlot_eq st found]
  have staged : GivesUp l [] s (stageComplete l tag st q s) := (updLane s l _).nil_trans (dropWaiters l tag _)
  exact ((staged.nil_trans (releaseUnits (stageComplete_slot st found) all)).trans_nil (handAnswer l _)).congr rfl rfl

theorem unwaited {gone : List Slot} (h : GivesUp l gone s t) {k : Lane} {tag : Tag} (free : s.Unwaited k tag) :
    t.Unwaited k tag := fun p hp => free p (h.waiters p hp)

end GivesUp

/-- A slot discarded waits for no walk any more (R75). -/
theorem discardSlot_unwaited {l : Lane} {tag : Tag} {q : Slot} {s : State} (found : s.slot? l tag = some q) :
    (discardSlot l tag s).Unwaited l tag := by
  unfold discardSlot
  rw [found]
  have held : (dropWaiters l tag s).slot? l tag = some q := found
  exact ((GivesUp.releaseUnits held (gone := fun _ => true) fun _ _ => rfl).trans_nil (GivesUp.updLane _ l _)).unwaited
    (unwaited_dropWaiters l tag s)

/-- A slot completed waits for no walk any more (R75). -/
theorem completeSlot_unwaited {l : Lane} {tag : Tag} {q : Slot} {st : RespStatus} {s : State}
    (found : s.slot? l tag = some q) : (completeSlot l tag st s).Unwaited l tag := by
  have xlat : (completeSlot l tag st s).xlat = (dropWaiters l tag s).xlat := by
    obtain ⟨_, _, _, _, _, xlat, _⟩ := completeSlot_rest st found
    exact xlat
  intro p hp
  rw [allWaiters_congr xlat] at hp
  exact unwaited_dropWaiters l tag s p hp

/-! ### The record of a lane that is given no credit -/

theorem grantRule_of_idle {l : Lane} {s : State} (idle : (s.lane l).session ≠ .active) : grantRule l s = s := by
  refine if_neg fun due => idle ?_
  rw [State.grantDue, Bool.and_eq_true, Bool.and_eq_true, beq_iff_eq] at due
  exact due.1.1

/-- Units given back leave the rest of the record: a READ's always, a WRITE's outside an ACTIVE session. -/
theorem releaseUnits_record {l : Lane} {tag : Tag} {q : Slot} {s : State} (gone : HeldUnit → Bool)
    (found : s.slot? l tag = some q) (idle : (s.lane l).session ≠ .active ∨ q.dir = .read) :
    (releaseUnits l tag gone s).lane l =
      (s.lane l).updSlot tag fun q => { q with held := q.held.filter fun u => !gone u } := by
  have released := unitsReleased_lane l tag gone q s l
  rw [if_pos rfl] at released
  rw [releaseUnits_eq gone found]
  split
  · rename_i write
    have idle := idle.resolve_right fun read => by rw [write] at read; cases read
    rw [grantRule_of_idle (by rw [released]; exact idle)]
    exact released
  · exact released

/-- A slot changed and then dropped is dropped. -/
theorem dropSlot_updSlot (r : LaneState) (tag : Tag) {f : Slot → Slot} (keeps : ∀ q, (f q).tag = q.tag) :
    (r.updSlot tag f).dropSlot tag = r.dropSlot tag := by
  unfold LaneState.dropSlot LaneState.updSlot
  dsimp only
  congr 1
  induction r.slots with
  | nil => rfl
  | cons q qs ih =>
    rw [List.map_cons, List.filter_cons, List.filter_cons, ih]
    by_cases e : q.tag = tag
    · simp [e, keeps]
    · simp [e]

/-- The record of a lane that is not ACTIVE once a slot is discarded (R30, R40). -/
theorem discardSlot_record {l : Lane} {tag : Tag} {q : Slot} {s : State} (found : s.slot? l tag = some q)
    (idle : (s.lane l).session ≠ .active ∨ q.dir = .read) :
    (discardSlot l tag s).lane l =
      { (s.lane l).dropSlot tag with issued := if q.stage = .issued then (s.lane l).issued - 1 else (s.lane l).issued } := by
  have held : (dropWaiters l tag s).slot? l tag = some q := found
  have record := releaseUnits_record (fun _ => true) held idle
  unfold discardSlot
  rw [found]
  dsimp only
  rw [updLane_lane_self, record, leaveIssued_eq, leaveIssued_issued]
  have dropped := dropSlot_updSlot (s.lane l) tag (f := fun q => { q with held := q.held.filter fun u => !true })
    fun _ => rfl
  rw [← dropped]
  rfl

/-- The record of a lane once a slot is freed, but for the credit of an ACTIVE one. -/
theorem freeSlot_record {l : Lane} {tag : Tag} {q : Slot} {s : State} (found : s.slot? l tag = some q)
    (idle : (s.lane l).session ≠ .active ∨ q.dir = .read) : (freeSlot l tag s).lane l = (s.lane l).dropSlot tag := by
  have record := releaseUnits_record (fun _ => true) found idle
  unfold freeSlot
  rw [updLane_lane_self, record]
  exact dropSlot_updSlot (s.lane l) tag fun _ => rfl

/-- What a slot that is freed leaves of its lane's record, ACTIVE or not. -/
theorem freeSlot_lane (l : Lane) (tag : Tag) (s : State) :
    ∃ c w, (freeSlot l tag s).lane l = { (s.lane l).dropSlot tag with credit := c, creditWaiting := w } := by
  obtain ⟨c, w, record⟩ := releaseUnits_lane l tag (fun _ => true) s
  refine ⟨c, w, ?_⟩
  unfold freeSlot
  rw [updLane_lane_self, record]
  have dropped := dropSlot_updSlot (s.lane l) tag (f := fun q => { q with held := q.held.filter fun u => !true })
    fun _ => rfl
  rw [← dropped]
  rfl

end Sys2Proof.Machine
end

section
/-! The end of a transmission (O52): each source's item leaves it, and the slot of an answer is freed. -/

namespace Sys2Proof.Machine

/-! ### A drain that closes outside RESTART -/

theorem State.resetSettled.congr {s u t : State} {l : Lane} (h : u.resetSettled t l) (mgmt : u.mgmt = s.mgmt)
    (number : ∀ k, (u.lane k).number = (s.lane k).number) : s.resetSettled t l := by
  unfold State.resetSettled State.notAwaited at h ⊢
  simpa only [mgmt, number] using h

/-- A drain that closes changes the lane's record and the engine alone. -/
theorem GivesUp.closeDrain {l : Lane} {gone : List Slot} {s t : State} (stage : s.mgmt.stage = .none)
    (h : GivesUp l gone s t) : GivesUp l gone s { closeDrain l t with mgmt := s.mgmt } := by
  have left : GivesUp l gone s { t with mgmt := s.mgmt } := by
    rw [← h.mgmt]
    exact h
  unfold Machine.closeDrain
  split
  · rw [enterDetached_fields (by rw [h.mgmt]; exact stage)]
    refine left.trans_nil (t := { t with mgmt := s.mgmt }) ?_
    exact GivesUp.updLane { t with mgmt := s.mgmt } l fun _ => (t.lane l).detach
  · exact left

/-- Outside RESTART a drain that closes ends a SESSION RESET that waits on its lane. -/
theorem closeDrain_settled {l : Lane} {s : State} (stage : s.mgmt.stage = .none) (draining : (s.lane l).session = .draining)
    (empty : (s.lane l).slots = []) :
    (closeDrain l s).lane l = (s.lane l).detach ∧ s.resetSettled (closeDrain l s) l := by
  rw [closeDrain_of_empty draining empty]
  exact ⟨enterDetached_lane_self l s, enterDetached_settled stage⟩

/-! ### The answer's slot freed -/

theorem dropSlot_of_head {r : LaneState} {q : Slot} {qs : List Slot} (slots : r.slots = q :: qs) (tags : r.tags.Nodup) :
    r.dropSlot q.tag = { r with slots := qs } := by
  unfold LaneState.tags at tags
  rw [slots, List.map_cons, List.nodup_cons] at tags
  unfold LaneState.dropSlot
  have rest : qs.filter (fun p => p.tag != q.tag) = qs :=
    List.filter_eq_self.2 fun p hp => by
      have other : p.tag ≠ q.tag := fun e => tags.1 (List.mem_map.2 ⟨p, hp, e⟩)
      simpa using other
  rw [slots, List.filter_cons, rest]
  simp

theorem slot?_of_head {r : LaneState} {q : Slot} {qs : List Slot} (slots : r.slots = q :: qs) : r.slot? q.tag = some q := by
  unfold LaneState.slot?
  rw [slots, List.find?_cons]
  simp

/-- The stream once the head has been answered or not (R35). -/
def LaneState.handedStream (r : LaneState) : List StreamItem :=
  match r.slots.head? with
  | some q => if q.stage == .complete && !r.answerHanded then r.stream ++ [.answer q.tag] else r.stream
  | none => r.stream

theorem handAnswer_record (l : Lane) (s : State) :
    (handAnswer l s).lane l = { s.lane l with stream := (s.lane l).handedStream } := by
  rw [handAnswer_eq, updLane_lane_self]
  rfl

theorem handedStream_of_due {r : LaneState} {q : Slot} (head : r.slots.head? = some q) (complete : q.stage = .complete)
    (free : r.noAnswer) : r.handedStream = r.stream ++ [.answer q.tag] := by
  have none_ : r.answerHanded = false := by
    rw [answerHanded_eq_false, LaneState.answered, List.filterMap_eq_nil_iff]
    intro x hx
    cases x with
    | answer tag => exact (free tag hx).elim
    | _ => rfl
  unfold LaneState.handedStream
  rw [head]
  simp [complete, none_]

theorem handedStream_of_not_due {r : LaneState} (h : ∀ q, r.slots.head? = some q → q.stage ≠ .complete) :
    r.handedStream = r.stream := by
  unfold LaneState.handedStream
  split
  · rename_i q head
    rw [if_neg]
    simp [h q head]
  · rfl

/-- What the end of an answer's transmission leaves (R37, R179): its slot is freed, and the next head answered. -/
def State.answerLeft (s : State) (l : Lane) (tag : Tag) (rest : List StreamItem) : State :=
  handAnswer l (freeSlot l tag (s.updLane l fun r => { r with stream := rest }))

section

variable {l : Lane} {q : Slot} {qs : List Slot} {rest : List StreamItem} {s : State}

theorem answerLeft_gives (slots : (s.lane l).slots = q :: qs) : GivesUp l [q] s (s.answerLeft l q.tag rest) := by
  have found : (s.updLane l fun r => { r with stream := rest }).slot? l q.tag = some q := by
    unfold State.slot?
    rw [updLane_lane_self]
    exact slot?_of_head slots
  exact (GivesUp.updLane s l _).nil_trans ((GivesUp.freeSlot found).trans_nil (GivesUp.handAnswer l _))

/-- The lane's record after the end of an answer's transmission. -/
theorem answerLeft_record (slots : (s.lane l).slots = q :: qs) (tags : (s.lane l).tags.Nodup) :
    ∃ c w, (s.answerLeft l q.tag rest).lane l =
        { s.lane l with
          slots := qs
          stream := { s.lane l with slots := qs, stream := rest }.handedStream
          credit := c
          creditWaiting := w }
      ∧ ((s.lane l).session ≠ .active ∨ q.dir = .read → c = (s.lane l).credit ∧ w = (s.lane l).creditWaiting) := by
  have popped : (s.updLane l fun r => { r with stream := rest }).lane l = { s.lane l with stream := rest } :=
    updLane_lane_self s l _
  have slots' : ({ s.lane l with stream := rest } : LaneState).slots = q :: qs := slots
  have found : (s.updLane l fun r => { r with stream := rest }).slot? l q.tag = some q := by
    unfold State.slot?
    rw [popped]
    exact slot?_of_head slots'
  have dropped := dropSlot_of_head slots' tags
  unfold State.answerLeft
  rw [handAnswer_record]
  by_cases idle : (s.lane l).session ≠ .active ∨ q.dir = .read
  · have record := freeSlot_record found (by rw [popped]; exact idle)
    rw [popped, dropped] at record
    rw [record]
    exact ⟨_, _, rfl, fun _ => ⟨rfl, rfl⟩⟩
  · obtain ⟨c, w, record⟩ := freeSlot_lane l q.tag (s.updLane l fun r => { r with stream := rest })
    rw [popped, dropped] at record
    rw [record]
    exact ⟨c, w, rfl, fun h => absurd h idle⟩

/-- An area without a READ whose units are filled, and without a WRITE. -/
theorem without_filled (a : Area) (filled : ∀ u ∈ q.held, u.filled = true) :
    (q.dir = .read → a.without [q] = { a with readFilled := a.readFilled - q.held.length })
      ∧ (q.dir = .write → a.without [q] = { a with writeOccupied := a.writeOccupied - q.held.length }) := by
  have all : q.held.filter (·.filled) = q.held := List.filter_eq_self.2 filled
  rw [← release_eq_without]
  unfold Area.release
  refine ⟨fun dir => ?_, fun dir => ?_⟩
  · rw [dir, all]
    simp
  · rw [dir]

end

/-- The end of an answer's transmission is the end of its slot, and of a drain that it empties. -/
theorem endStream_of_answer {l : Lane} {tag : Tag} {rest : List StreamItem} {s : State}
    (stream : (s.lane l).stream = .answer tag :: rest) : endStream l s = closeDrain l (s.answerLeft l tag rest) := by
  unfold endStream
  rw [stream]
  rfl

theorem endStream_of_cons {l : Lane} {x : StreamItem} {rest : List StreamItem} {s : State}
    (stream : (s.lane l).stream = x :: rest) :
    endStream l s = endItem l x (s.setLane l { s.lane l with stream := rest }) := by
  unfold endStream
  rw [stream]
  exact congrArg (endItem l x) (updLane_eq_setLane ..)

theorem endStream_of_joinReply {l : Lane} {st : JoinStatus} {tag : Tag} {number : BitVec 8} {rest : List StreamItem}
    {s : State} (stream : (s.lane l).stream = .joinReply st tag number :: rest) :
    endStream l s = s.setLane l
      { s.lane l with stream := rest, joinReplySent := (s.lane l).joinReplySent || st == .ok } := by
  rw [endStream_of_cons stream]
  unfold endItem
  dsimp only
  split
  · rename_i ok
    rw [updLane_eq_setLane, setLane_setLane, setLane_lane_self, ok, Bool.or_true]
  · rename_i other
    rw [Bool.not_eq_true] at other
    rw [other, Bool.or_false]

theorem endStream_of_plain {l : Lane} {tag : Tag} {number : BitVec 8} {rest : List StreamItem} {s : State}
    (stream : (∃ st, (s.lane l).stream = .leaveReply st tag number :: rest)
      ∨ (s.lane l).stream = .closing tag number :: rest) :
    endStream l s = s.setLane l { s.lane l with stream := rest } := by
  rcases stream with ⟨st, stream⟩ | stream
  · exact endStream_of_cons stream
  · exact endStream_of_cons stream

theorem settleOp_of_open {s : State} {o : Operation} (op : s.mgmt.op = some o) (ended : o.ended = false) :
    settleOp s = s := by
  simp [settleOp, op, ended]

theorem settleOp_of_forfeit {s : State} {o : Operation} (op : s.mgmt.op = some o) (ended : o.ended = true)
    (forfeit : s.mgmt.forfeit = true) : settleOp s = { s with mgmt := { s.mgmt with op := none } } := by
  simp [settleOp, op, ended, forfeit, State.withMgmt]

theorem settleOp_of_empty {s : State} {o : Operation} (op : s.mgmt.op = some o) (ended : o.ended = true)
    (forfeit : s.mgmt.forfeit = false) (reply : s.mgmt.reply = none) :
    settleOp s = { s with mgmt := { s.mgmt with op := none } }.replied o.lane o.tag o.kind.code .done 0 [] := by
  simp [settleOp, op, ended, forfeit, reply, State.withMgmt, State.replied, finalReply, State.lane]

/-- What the end of an answer's transmission comes to outside RESTART: the engine aside, and the lane's record. -/
theorem closeDrain_answerLeft {l : Lane} {q : Slot} {qs : List Slot} {rest : List StreamItem} {s : State}
    (slots : (s.lane l).slots = q :: qs) (tags : (s.lane l).tags.Nodup) (stage : s.mgmt.stage = .none) :
    let t := closeDrain l (s.answerLeft l q.tag rest)
    let r := (s.answerLeft l q.tag rest).lane l
    GivesUp l [q] s { t with mgmt := s.mgmt }
      ∧ (qs = [] → (s.lane l).session = .draining → t.lane l = r.detach ∧ s.resetSettled t l)
      ∧ (qs ≠ [] ∨ (s.lane l).session ≠ .draining → t.mgmt = s.mgmt ∧ t.lane l = r) := by
  intro t r
  have gives := answerLeft_gives (rest := rest) slots
  obtain ⟨c, w, record, _⟩ := answerLeft_record (rest := rest) slots tags
  have stage' : (s.answerLeft l q.tag rest).mgmt.stage = .none := by rw [gives.mgmt]; exact stage
  refine ⟨gives.closeDrain stage, fun empty draining => ?_, fun open_ => ?_⟩
  · obtain ⟨lane, settled⟩ := closeDrain_settled stage' (by rw [record]; exact draining) (by rw [record]; exact empty)
    refine ⟨lane, settled.congr gives.mgmt fun k => ?_⟩
    by_cases e : k = l
    · rw [e, record]
    · rw [gives.others k e]
  · have same : t = s.answerLeft l q.tag rest :=
      closeDrain_of_open (by rw [record]; exact open_.symm)
    rw [same]
    exact ⟨gives.mgmt, rfl⟩

/-- The lane's record after the end of an answer's transmission outside RESTART. -/
theorem closeDrain_answerLeft_record {l : Lane} {q : Slot} {qs : List Slot} {rest : List StreamItem} {s : State}
    (slots : (s.lane l).slots = q :: qs) (tags : (s.lane l).tags.Nodup) (stage : s.mgmt.stage = .none) :
    let p := (closeDrain l (s.answerLeft l q.tag rest)).lane l
    let r := s.lane l
    p.slots = qs ∧ p.issued = r.issued ∧ p.number = r.number
      ∧ (r.session ≠ .draining → q.dir = .read → p.credit = r.credit ∧ p.creditWaiting = r.creditWaiting)
      ∧ (qs ≠ [] ∨ r.session ≠ .draining → p.stream = { r with slots := qs, stream := rest }.handedStream)
      ∧ (qs = [] → r.session = .draining → p.session = .detached ∧ p.credit = 0)
      ∧ (qs = [] → r.session = .draining → r.drain = .answered → ∀ tag, r.closingOwed = some tag →
          p.stream = rest ++ [.closing tag r.number]) := by
  intro p r
  obtain ⟨_, closed, open_⟩ := closeDrain_answerLeft (rest := rest) slots tags stage
  obtain ⟨c, w, record, credit⟩ := answerLeft_record (rest := rest) slots tags
  by_cases h : qs = [] ∧ r.session = .draining
  · obtain ⟨empty, draining⟩ := h
    have lane : p = _ := (closed empty draining).1.trans (congrArg LaneState.detach record)
    have stays : { r with slots := qs, stream := rest }.handedStream = rest :=
      handedStream_of_not_due (r := { r with slots := qs, stream := rest }) fun x head => by
        rw [empty] at head
        cases head
    rw [lane]
    refine ⟨rfl, rfl, rfl, fun other => absurd draining other, fun open_ => ?_, fun _ _ => ⟨rfl, rfl⟩,
      fun _ _ answered tag owed => ?_⟩
    · exact absurd open_ (by rw [not_or, not_not, not_not]; exact ⟨empty, draining⟩)
    · have detached := detach_of_answered (r := { r with
        slots := qs, stream := { r with slots := qs, stream := rest }.handedStream, credit := c, creditWaiting := w })
        (tag := tag) answered owed
      exact (congrArg LaneState.stream detached).trans
        (congrArg (fun xs => xs ++ [StreamItem.closing tag r.number]) stays)
  · rw [not_and_or] at h
    have lane : p = _ := (open_ h).2.trans record
    rw [lane]
    exact ⟨rfl, rfl, rfl, fun _ dir => credit (.inr dir), fun _ => rfl,
      fun empty draining => (h.elim (· empty) (· draining)).elim,
      fun empty draining => (h.elim (· empty) (· draining)).elim⟩

end Sys2Proof.Machine

open Sys2Proof Sys2Proof.Machine in
/-- Settles O52, source by source; an answer's slot is freed, and its drain closed, as `answerLeft` says. -/
theorem theEndedItemLeavesItsSource : Obligations.TheEndedItemLeavesItsSource := by
  intro p l rest s r run idle a area
  have ended : ∀ source, run source = .next (endSource source idle) := fun _ => rfl
  refine ⟨fun free => ?_, fun op => ?_, fun o op => ⟨fun open_ => ?_, fun late forfeit => ?_, fun late forfeit => ?_⟩,
    rfl, rfl, rfl, fun st tag number stream => ?_, fun st tag number stream => ?_,
    fun q qs stream slots tags filled stage => ?_⟩
  · have : transmissionEnd s = s := by unfold transmissionEnd; rw [free]
    exact congrArg Host.Outcome.next this
  · exact (ended _).trans (congrArg Host.Outcome.next (settleOp_of_none op))
  · exact (ended _).trans (congrArg Host.Outcome.next (settleOp_of_open op open_))
  · exact (ended _).trans (congrArg Host.Outcome.next (settleOp_of_forfeit op late forfeit))
  · exact (ended _).trans (congrArg Host.Outcome.next (settleOp_of_empty op late forfeit rfl))
  · exact (ended _).trans (congrArg Host.Outcome.next (endStream_of_joinReply (s := idle) stream))
  · exact (ended _).trans (congrArg Host.Outcome.next
      (endStream_of_plain (s := idle) (stream.imp_left fun e => ⟨st, e⟩)))
  · obtain ⟨gives, closed, open_⟩ := closeDrain_answerLeft (s := idle) (rest := rest) slots tags stage
    obtain ⟨slots', issued, number, credit, handed, detached, closing⟩ :=
      closeDrain_answerLeft_record (s := idle) (rest := rest) slots tags stage
    obtain ⟨read, write⟩ := without_filled area filled
    have ran : run (.stream l) = .next (closeDrain l (idle.answerLeft l q.tag rest)) :=
      (ended _).trans (congrArg Host.Outcome.next (endStream_of_answer (s := idle) stream))
    generalize closeDrain l (idle.answerLeft l q.tag rest) = t at *
    refine ⟨t, ran, gives.link, slots', issued, number, fun dir => ⟨gives.area.trans (read dir), fun session => credit session dir⟩,
      fun dir => gives.area.trans (write dir), gives.areas, fun empty draining => (closed empty draining).2,
      fun h => (open_ h).1, fun h head complete free => ?_, fun head session => ?_, detached, closing, gives.others,
      gives.faults, gives.port, gives.classes⟩
    · have some_ : qs ≠ [] := fun e => by rw [e] at head; cases head
      exact (handed (.inl some_)).trans (handedStream_of_due (r := { r with slots := qs, stream := rest }) head complete
        fun tag mem => free _ mem tag rfl)
    · exact (handed (.inr session)).trans
        (handedStream_of_not_due (r := { r with slots := qs, stream := rest }) head)
end

section
/-! A drain of kind SILENT (R40): the slots that go, the stream that stays, and SESSION RESET (O12). -/

namespace Sys2Proof.Machine

/-! ### Slots discarded one after another -/

/-- The slots whose tags are not those of these slots. -/
def without (slots gone : List Slot) : List Slot := slots.filter fun q => !(gone.map (·.tag)).contains q.tag

theorem without_nil (slots : List Slot) : without slots [] = slots := by simp [without]

theorem without_cons (slots : List Slot) (q : Slot) (gone : List Slot) :
    without slots (q :: gone) = without (slots.filter fun p => p.tag != q.tag) gone := by
  simp only [without, List.filter_filter]
  refine List.filter_congr fun p _ => ?_
  by_cases e : p.tag = q.tag <;> simp [e]

/-- With each tag once, the slots without the tags of those that satisfy a test are those that fail it. -/
theorem without_filter {slots : List Slot} (tags : (slots.map (·.tag)).Nodup) (p : Slot → Bool) :
    without slots (slots.filter p) = slots.filter fun q => !p q := by
  refine List.filter_congr fun q hq => ?_
  congr 1
  rw [Bool.eq_iff_iff, List.contains_iff_mem, List.mem_map]
  constructor
  · rintro ⟨x, hx, e⟩
    have same := List.inj_on_of_nodup_map tags (List.mem_filter.1 hx).1 hq e
    exact same ▸ (List.mem_filter.1 hx).2
  · exact fun hp => ⟨q, List.mem_filter.2 ⟨hq, hp⟩, rfl⟩

theorem filter_tags_nodup {slots : List Slot} (tags : (slots.map (·.tag)).Nodup) (p : Slot → Bool) :
    ((slots.filter p).map (·.tag)).Nodup := tags.sublist (List.filter_sublist.map _)

/-- Slots of a lane that is not ACTIVE are discarded one after another (R40). -/
theorem discardAll {l : Lane} : ∀ (gone : List Slot) {s : State}, (s.lane l).tags.Nodup → (gone.map (·.tag)).Nodup →
    (∀ q ∈ gone, q ∈ (s.lane l).slots) → (∀ q ∈ gone, q.stage ≠ .issued) → (s.lane l).session ≠ .active →
    GivesUp l gone s (forEach (gone.map (·.tag)) (discardSlot l) s)
      ∧ (forEach (gone.map (·.tag)) (discardSlot l) s).lane l
        = { s.lane l with slots := without (s.lane l).slots gone }
  | [], s, _, _, _, _, _ => ⟨.refl l s, by rw [without_nil]; rfl⟩
  | q :: gone, s, tags, once, sub, unissued, idle => by
    have found : s.slot? l q.tag = some q := slot?_of_mem tags (sub q (List.mem_cons_self ..))
    have record := discardSlot_record found (.inl idle)
    rw [if_neg (unissued q (List.mem_cons_self ..))] at record
    have first := GivesUp.discardSlot found
    rw [List.map_cons, List.nodup_cons] at once
    have tags' : ((discardSlot l q.tag s).lane l).tags.Nodup := by
      rw [record]
      exact filter_tags_nodup tags _
    have sub' : ∀ p ∈ gone, p ∈ ((discardSlot l q.tag s).lane l).slots := fun p hp => by
      rw [record]
      refine List.mem_filter.2 ⟨sub p (List.mem_cons_of_mem _ hp), ?_⟩
      have other : p.tag ≠ q.tag := fun e => once.1 (List.mem_map.2 ⟨p, hp, e⟩)
      simpa using other
    obtain ⟨gives, lane⟩ := discardAll gone tags' once.2 sub' (fun p hp => unissued p (List.mem_cons_of_mem _ hp))
      (by rw [record]; exact idle)
    refine ⟨first.trans gives, lane.trans ?_⟩
    rw [record, without_cons]
    rfl

/-! ### A drain of kind SILENT -/

theorem survives_not (q : Slot) : (q.unissued || q.stage == .complete) = !q.survives := by
  unfold Slot.unissued Slot.survives
  cases q.stage <;> rfl

theorem silentTags_eq (r : LaneState) : r.silentTags = (r.slots.filter fun q => !q.survives).map (·.tag) := by
  unfold LaneState.silentTags
  simp only [survives_not]

/-- What a SILENT drain leaves in a stream, in the words of the statements. -/
theorem keptStream_eq (started : Bool) (xs : List StreamItem) : keptStream started xs = silentStream started xs := by
  have closing : ∀ ys : List StreamItem, ys.filter StreamItem.isClosing = ys.filter fun x => match x with
      | .closing _ _ => true
      | _ => false := fun ys => List.filter_congr fun x _ => by cases x <;> rfl
  unfold keptStream silentStream
  cases started
  · exact closing xs
  · show xs.take 1 ++ xs.tail.filter StreamItem.isClosing = xs.take 1 ++ (xs.drop 1).filter _
    rw [List.drop_one]
    exact congrArg (xs.take 1 ++ ·) (closing xs.tail)

/-- A lane that goes DRAINING SILENT, before its drain closes or not. -/
def State.silencedLane (s : State) (l : Lane) : State :=
  let t := s.updLane l (LaneState.silenced (s.streamStarted l))
  forEach (t.lane l).silentTags (discardSlot l) t

theorem silence_eq (l : Lane) (s : State) : silence l s = closeDrain l (s.silencedLane l) := rfl

/-- The slots that a SILENT drain discards (R40). -/
def LaneState.silentGone (r : LaneState) : List Slot := r.slots.filter fun q => !q.survives

/-- What a SILENT drain does: the slots that are neither ISSUED nor SENDING go with their units. -/
theorem silencedLane_effect {l : Lane} {s : State} (tags : (s.lane l).tags.Nodup) :
    GivesUp l (s.lane l).silentGone s (s.silencedLane l)
      ∧ (s.silencedLane l).lane l =
        { (s.lane l).silenced (s.streamStarted l) with slots := (s.lane l).slots.filter Slot.survives } := by
  have lane := updLane_lane_self s l (LaneState.silenced (s.streamStarted l))
  have silent : ((s.updLane l (LaneState.silenced (s.streamStarted l))).lane l).silentTags
      = (s.lane l).silentGone.map (·.tag) := by
    rw [lane]
    exact silentTags_eq _
  have tags' : (((s.updLane l (LaneState.silenced (s.streamStarted l))).lane l)).tags.Nodup := by
    rw [lane]
    exact tags
  obtain ⟨gives, record⟩ := discardAll (s.lane l).silentGone tags' (filter_tags_nodup tags _)
    (fun q hq => by rw [lane]; exact (List.mem_filter.1 hq).1)
    (fun q hq e => by
      have := (List.mem_filter.1 hq).2
      simp [Slot.survives, e] at this)
    (by rw [lane]; exact fun e => by cases e)
  have same : s.silencedLane l = forEach ((s.lane l).silentGone.map (·.tag)) (discardSlot l)
      (s.updLane l (LaneState.silenced (s.streamStarted l))) := by
    unfold State.silencedLane
    dsimp only
    rw [silent]
  rw [same]
  refine ⟨(GivesUp.updLane s l _).nil_trans gives, record.trans ?_⟩
  rw [lane]
  have left := without_filter tags fun q => !q.survives
  simp only [Bool.not_not] at left
  exact congrArg (fun xs => { (s.lane l).silenced (s.streamStarted l) with slots := xs }) left

/-- What a SILENT drain leaves of a lane outside RESTART, closed or not. -/
theorem silence_effect {l : Lane} {s : State} (tags : (s.lane l).tags.Nodup) (stage : s.mgmt.stage = .none) :
    let r := s.lane l
    let p := (silence l s).lane l
    let kept := r.slots.filter Slot.survives
    GivesUp l r.silentGone s { silence l s with mgmt := s.mgmt }
      ∧ p.slots = kept ∧ p.number = r.number ∧ p.issued = r.issued
      ∧ p.stream = silentStream (s.streamStarted l) r.stream
      ∧ (kept ≠ [] → p.session = .draining ∧ p.drain = .silent ∧ p.closingOwed = none ∧ p.credit = r.credit
          ∧ (silence l s).mgmt = s.mgmt)
      ∧ (kept = [] → p.session = .detached ∧ p.drain = .none ∧ p.credit = 0 ∧ p.creditWaiting = none
          ∧ s.resetSettled (silence l s) l) := by
  intro r p kept
  obtain ⟨gives, record⟩ := silencedLane_effect tags
  have closed := gives.closeDrain stage
  rw [← silence_eq] at closed
  have stream := keptStream_eq (s.streamStarted l) r.stream
  refine ⟨closed, ?_⟩
  by_cases empty : kept = []
  · obtain ⟨lane, settled⟩ := closeDrain_settled (s := s.silencedLane l) (l := l) (by rw [gives.mgmt]; exact stage)
      (by rw [record]; rfl) (by rw [record]; exact empty)
    have lane : p = _ := lane.trans ((congrArg LaneState.detach record).trans (detach_of_silent rfl))
    rw [lane]
    refine ⟨rfl, rfl, rfl, stream, fun some_ => absurd empty some_, fun _ => ⟨rfl, rfl, rfl, rfl, ?_⟩⟩
    refine settled.congr gives.mgmt fun k => ?_
    by_cases e : k = l
    · rw [e, record]
      rfl
    · rw [gives.others k e]
  · have same : silence l s = s.silencedLane l :=
      (silence_eq l s).trans (closeDrain_of_open (.inr (by rw [record]; exact empty)))
    have lane : p = _ := (congrArg (fun t : State => t.lane l) same).trans record
    rw [lane, same]
    exact ⟨rfl, rfl, rfl, stream, fun _ => ⟨rfl, rfl, rfl, rfl, gives.mgmt⟩, fun none_ => absurd none_ empty⟩

/-- SESSION RESET in progress, before its lane is silenced (R16). -/
def State.resetBegun (s : State) (l m : Lane) (tag : Tag) : State :=
  { s with mgmt := { s.mgmt with op := some ⟨.sessionReset l, m, tag, false⟩ } }

theorem sessionReset_of_silent {l : Lane} {rq : MgmtRequest} {s : State} (session : (s.lane l).session ≠ .detached)
    (silent : (s.lane l).drain = .silent) : sessionReset rq l s = s.resetBegun l rq.lane rq.tag := by
  have silent' : ((s.resetBegun l rq.lane rq.tag).lane l).drain = .silent := silent
  unfold sessionReset
  rw [if_neg (by simpa using session)]
  unfold silenceNew
  rw [if_pos]
  · rfl
  · rw [Bool.or_eq_true, beq_iff_eq, beq_iff_eq]
    exact .inr silent'

theorem sessionReset_of_open {l : Lane} {rq : MgmtRequest} {s : State} (session : (s.lane l).session ≠ .detached)
    (drain : (s.lane l).drain ≠ .silent) : sessionReset rq l s = silence l (s.resetBegun l rq.lane rq.tag) := by
  unfold sessionReset
  rw [if_neg (by simpa using session)]
  unfold silenceNew
  rw [if_neg]
  · rfl
  · rw [Bool.or_eq_true, beq_iff_eq, beq_iff_eq, not_or]
    exact ⟨session, drain⟩

end Sys2Proof.Machine

open Sys2Proof Sys2Proof.Machine in
/-- Settles O12: the engine runs SESSION RESET, and the lane goes DRAINING SILENT as `silence_effect` says. -/
theorem sessionResetSilencesTheLane : Obligations.SessionResetSilencesTheLane := by
  intro lane tag ws l s m r a ready two operand action
  have ran : exec (.sessionReset lane tag ws) s = .next (sessionReset ⟨m, tag, 0x09⟩ l s.taken) :=
    congrArg Host.Outcome.next (takeMgmt_session (run := sessionReset ⟨m, tag, 0x09⟩) ready two operand (by omega))
  rw [ran]
  refine ⟨fun detached => ?_, fun draining silent => ?_, fun joined drain tags => ?_⟩
  · have detached : (s.lane l).session = .detached := detached
    simp [sessionReset, detached, replyPlain_eq]
  · have joined : (s.taken.lane l).session ≠ .detached := fun e => by
      have := draining.symm.trans e
      cases this
    rw [sessionReset_of_silent (s := s.taken) joined silent]
    rfl
  · rw [sessionReset_of_open (s := s.taken) joined drain]
    obtain ⟨gives, slots, number, issued, stream, open_, closed⟩ :=
      silence_effect (l := l) (s := s.taken.resetBegun l m tag) tags ready.stage
    generalize silence l (s.taken.resetBegun l m tag) = t at *
    refine ⟨t, rfl, number, slots, issued, stream, gives.area, gives.areas, fun some_ => ?_, fun none_ => ?_,
      gives.others, gives.faults, gives.link, gives.agents, gives.windows, gives.classes, gives.port⟩
    · obtain ⟨draining, silent, owed, credit, mgmt⟩ := open_ (by rw [slots] at some_; exact some_)
      exact ⟨draining, silent, owed, credit, by rw [mgmt]; rfl, by rw [mgmt]; exact ready.slot⟩
    · obtain ⟨detached, _, credit, waiting, settled⟩ := closed (by rw [slots] at none_; exact none_)
      have mgmt := (settled.2 m tag rfl).2.1 rfl ready.slot
      exact ⟨detached, credit, waiting, by rw [mgmt], by rw [mgmt]; rfl⟩
end

section
/-! A drain of kind ANSWERED (R39): the slots that become COMPLETE, the answer of the head, and LEAVE (O9). -/

namespace Sys2Proof.Machine

/-! ### One slot completed -/

/-- The record once its head has been answered or not (R35). -/
def LaneState.headAnswered (r : LaneState) : LaneState := { r with stream := r.handedStream }

/-- The record of a lane that is not ACTIVE once a slot is COMPLETE (R31 to R35). -/
theorem completeSlot_record {l : Lane} {tag : Tag} {q : Slot} {st : RespStatus} {s : State}
    (found : s.slot? l tag = some q) (idle : (s.lane l).session ≠ .active) :
    let p : LaneState := { s.lane l with
      issued := if q.stage = .issued then (s.lane l).issued - 1 else (s.lane l).issued
      slots := (s.lane l).slots.map fun p => if p.tag == tag then p.completed q.dir st else p }
    (completeSlot l tag st s).lane l = p.headAnswered := by
  intro p
  have released : (releaseUnits l tag (givesBack q.dir st) (stageComplete l tag st q s)).lane l = p := by
    have record := released_lane (l := l) (tag := tag) (q := q) (s := s) st
    rw [releaseUnits_eq _ (stageComplete_slot st found)]
    split
    · rw [grantRule_of_idle (by rw [record]; exact idle)]
      exact record
    · exact record
  rw [completeSlot_eq st found, handAnswer_record, released]
  rfl

/-- A slot that a drain of kind ANSWERED completes (R39). -/
def Slot.cancelled (q : Slot) : Slot := { q with stage := .complete, status := some .cancelled, held := [] }

theorem givesBack_cancelled (dir : Dir) (u : HeldUnit) : givesBack dir .cancelled u = true := by
  cases dir
  · simp [givesBack, RespStatus.carriesData]
  · rfl

theorem completed_cancelled (q : Slot) (dir : Dir) : q.completed dir .cancelled = q.cancelled := by
  have none_ : q.held.filter (fun u => !givesBack dir .cancelled u) = [] :=
    List.filter_eq_nil_iff.2 fun u _ => by rw [givesBack_cancelled]; decide
  unfold Slot.completed Slot.cancelled
  rw [none_]

/-- The list once the slot with this tag is CANCELLED. -/
def cancelOne (slots : List Slot) (tag : Tag) : List Slot := slots.map fun p => if p.tag == tag then p.cancelled else p

theorem cancelOne_tags (slots : List Slot) (tag : Tag) : (cancelOne slots tag).map (·.tag) = slots.map (·.tag) := by
  rw [cancelOne, List.map_map]
  refine List.map_congr_left fun p _ => ?_
  simp only [Function.comp]
  split <;> rfl

theorem mem_cancelOne {slots : List Slot} {tag : Tag} {q : Slot} (mem : q ∈ slots) (other : q.tag ≠ tag) :
    q ∈ cancelOne slots tag := List.mem_map.2 ⟨q, mem, if_neg (by simpa using other)⟩

/-- An unissued slot of a lane that is not ACTIVE is CANCELLED, and the head answered if that is due (R35, R39). -/
theorem cancel_record {l : Lane} {q : Slot} {s : State} (found : s.slot? l q.tag = some q) (unissued : q.stage ≠ .issued)
    (idle : (s.lane l).session ≠ .active) :
    (completeSlot l q.tag .cancelled s).lane l
      = ({ s.lane l with slots := cancelOne (s.lane l).slots q.tag } : LaneState).headAnswered := by
  have record := completeSlot_record (st := .cancelled) found idle
  simp only [completed_cancelled, if_neg unissued] at record
  exact record

/-! ### Slots completed one after another -/

/-- The list once the slots with these slots' tags are CANCELLED. -/
def cancelAll (slots gone : List Slot) : List Slot :=
  slots.map fun q => if (gone.map (·.tag)).contains q.tag then q.cancelled else q

theorem cancelAll_nil (slots : List Slot) : cancelAll slots [] = slots := by simp [cancelAll]

theorem cancelled_cancelled (q : Slot) : q.cancelled.cancelled = q.cancelled := rfl

theorem cancelAll_cons (slots : List Slot) (q : Slot) (gone : List Slot) :
    cancelAll slots (q :: gone) = cancelAll (cancelOne slots q.tag) gone := by
  simp only [cancelAll, cancelOne, List.map_map]
  refine List.map_congr_left fun p _ => ?_
  by_cases e : p.tag = q.tag
  · simp [e, Slot.cancelled]
  · simp [e]

theorem cancelAll_tags (slots gone : List Slot) : (cancelAll slots gone).map (·.tag) = slots.map (·.tag) := by
  rw [cancelAll, List.map_map]
  refine List.map_congr_left fun p _ => ?_
  simp only [Function.comp]
  split <;> rfl

/-- With each tag once, the slots that satisfy a test are CANCELLED. -/
theorem cancelAll_filter {slots : List Slot} (tags : (slots.map (·.tag)).Nodup) (p : Slot → Bool) :
    cancelAll slots (slots.filter p) = slots.map fun q => if p q then q.cancelled else q := by
  refine List.map_congr_left fun q hq => ?_
  have same : ((slots.filter p).map (·.tag)).contains q.tag = p q := by
    rw [Bool.eq_iff_iff, List.contains_iff_mem, List.mem_map]
    constructor
    · rintro ⟨x, hx, e⟩
      have same := List.inj_on_of_nodup_map tags (List.mem_filter.1 hx).1 hq e
      exact same ▸ (List.mem_filter.1 hx).2
    · exact fun hp => ⟨q, List.mem_filter.2 ⟨hq, hp⟩, rfl⟩
  rw [same]

/-- A head that is COMPLETE stays COMPLETE when slots are CANCELLED, under its tag. -/
theorem cancelAll_head {slots gone : List Slot} {q : Slot} (head : slots.head? = some q) :
    ∃ p, (cancelAll slots gone).head? = some p ∧ p.tag = q.tag ∧ (q.stage = .complete → p.stage = .complete) := by
  cases slots with
  | nil => cases head
  | cons x xs =>
    cases head
    refine ⟨_, rfl, ?_⟩
    dsimp only
    split
    · exact ⟨rfl, fun _ => rfl⟩
    · exact ⟨rfl, id⟩

/-! ### The answer of the head -/

theorem handedStream_of_handed {r : LaneState} (handed : r.answerHanded = true) : r.handedStream = r.stream := by
  unfold LaneState.handedStream
  split <;> simp [handed]

theorem answerHanded_append (r : LaneState) (tag : Tag) :
    ({ r with stream := r.stream ++ [.answer tag] } : LaneState).answerHanded = true := by
  simp [LaneState.answerHanded]

/-- A head answered is not answered again, and once more slots are CANCELLED the same head would have been answered. -/
theorem handedStream_cancelAll {r p : LaneState} {gone : List Slot} (stream : p.stream = r.stream) :
    ({ p.headAnswered with slots := cancelAll p.slots gone } : LaneState).handedStream
      = ({ r with slots := cancelAll p.slots gone } : LaneState).handedStream := by
  have handed : r.answerHanded = p.answerHanded := by unfold LaneState.answerHanded; rw [stream]
  cases head : p.slots.head? with
  | none =>
    have empty : p.slots = [] := List.head?_eq_none_iff.1 head
    have same : p.handedStream = p.stream := by
      unfold LaneState.handedStream
      rw [head]
    unfold LaneState.handedStream
    rw [empty]
    exact same.trans stream
  | some q =>
    obtain ⟨x, head', tag, complete⟩ := cancelAll_head (gone := gone) head
    by_cases due : q.stage = .complete ∧ p.answerHanded = false
    · have first : p.handedStream = r.stream ++ [.answer q.tag] := by
        unfold LaneState.handedStream
        rw [head, ← stream]
        simp [due.1, due.2]
      unfold LaneState.headAnswered
      rw [first]
      refine (handedStream_of_handed ?_).trans ?_
      · exact answerHanded_append { p with stream := r.stream } q.tag
      · unfold LaneState.handedStream
        dsimp only
        rw [head']
        have free : ({ r with slots := cancelAll p.slots gone } : LaneState).answerHanded = false := handed.trans due.2
        simp [complete due.1, free, tag]
    · have first : p.handedStream = p.stream := by
        unfold LaneState.handedStream
        rw [head]
        simp only [not_and_or, Bool.not_eq_false] at due
        rcases due with open_ | handed
        · simp [open_]
        · simp [handed]
      unfold LaneState.headAnswered
      rw [first]
      unfold LaneState.handedStream LaneState.answerHanded
      dsimp only
      rw [stream]

theorem headAnswered_settled (p : LaneState) : p.headAnswered.handedStream = p.headAnswered.stream := by
  have same := handedStream_cancelAll (r := p) (p := p) (gone := []) rfl
  rw [cancelAll_nil] at same
  exact same

/-- Slots of a lane that is not ACTIVE are CANCELLED one after another (R39). -/
theorem cancelEach {l : Lane} : ∀ (gone : List Slot) {s : State}, (s.lane l).tags.Nodup → (gone.map (·.tag)).Nodup →
    (∀ q ∈ gone, q ∈ (s.lane l).slots) → (∀ q ∈ gone, q.stage ≠ .issued) → (s.lane l).session ≠ .active →
    let t := forEach (gone.map (·.tag)) (fun tag => completeSlot l tag .cancelled) s
    let p : LaneState := { s.lane l with slots := cancelAll (s.lane l).slots gone }
    GivesUp l gone s t ∧ (∀ q ∈ gone, t.Unwaited l q.tag) ∧ ∃ xs, t.lane l = { p with stream := xs }
      ∧ ((s.lane l).handedStream = (s.lane l).stream → xs = p.handedStream)
  | [], s, _, _, _, _, _ => by
    refine ⟨.refl l s, fun _ h => absurd h (List.not_mem_nil), (s.lane l).stream, ?_⟩
    rw [cancelAll_nil]
    exact ⟨rfl, Eq.symm⟩
  | q :: gone, s, tags, once, sub, unissued, idle => by
    intro t p
    have found : s.slot? l q.tag = some q := slot?_of_mem tags (sub q (List.mem_cons_self ..))
    have record := cancel_record found (unissued q (List.mem_cons_self ..)) idle
    have first := GivesUp.completeSlot found (st := .cancelled) fun u _ => givesBack_cancelled q.dir u
    have left := completeSlot_unwaited (st := .cancelled) found
    rw [List.map_cons, List.nodup_cons] at once
    set u := completeSlot l q.tag .cancelled s with hu
    have tags' : (u.lane l).tags.Nodup := by
      rw [record]
      show ((cancelOne (s.lane l).slots q.tag).map (·.tag)).Nodup
      rw [cancelOne_tags]
      exact tags
    have sub' : ∀ x ∈ gone, x ∈ (u.lane l).slots := fun x hx => by
      rw [record]
      have other : x.tag ≠ q.tag := fun e => once.1 (List.mem_map.2 ⟨x, hx, e⟩)
      exact mem_cancelOne (sub x (List.mem_cons_of_mem _ hx)) other
    obtain ⟨gives, unwaited, xs, lane, handed⟩ := cancelEach gone tags' once.2 sub'
      (fun x hx => unissued x (List.mem_cons_of_mem _ hx)) (by rw [record]; exact idle)
    have settled := handed (by rw [record]; exact headAnswered_settled _)
    refine ⟨first.trans gives, fun x hx => ?_, xs, lane.trans ?_, fun _ => settled.trans ?_⟩
    · rcases List.mem_cons.1 hx with rfl | hx
      · exact gives.unwaited left
      · exact unwaited x hx
    · rw [record]
      simp only [p, cancelAll_cons]
      rfl
    · have stream := handedStream_cancelAll (r := s.lane l) (gone := gone)
        (p := { s.lane l with slots := cancelOne (s.lane l).slots q.tag }) rfl
      rw [record]
      simp only [p, cancelAll_cons]
      exact stream

/-- An answer handed is among the answers of the stream. -/
theorem answerHanded_of_answer {r : LaneState} (h : ¬r.noAnswer) : r.answerHanded = true := by
  rw [← Bool.not_eq_false, answerHanded_eq_false]
  intro none_
  refine h fun tag mem => ?_
  have := List.filterMap_eq_nil_iff.1 none_ _ mem
  cases this

/-- No answer is due while the head is not COMPLETE or an answer is handed. -/
theorem handedStream_of_settled {r : LaneState} {h : Slot} (head : r.slots.head? = some h)
    (settled : h.stage ≠ .complete ∨ ¬r.noAnswer) : r.handedStream = r.stream := by
  rcases settled with waiting | answered
  · exact handedStream_of_not_due fun q hq => by rw [Option.some.inj (hq.symm.trans head)]; exact waiting
  · exact handedStream_of_handed (answerHanded_of_answer answered)

/-! ### LEAVE -/

/-- The record of a lane whose LEAVE opens a drain, before its slots are CANCELLED (R11). -/
def LaneState.leaving (r : LaneState) (tag : Tag) : LaneState :=
  { r with session := .draining, drain := .answered, closingOwed := some tag }

/-- A drain of kind ANSWERED that opens on a list with slots (R11, R39). -/
theorem openAnswered_effect {l : Lane} {tag : Tag} {s : State} (tags : (s.lane l).tags.Nodup) (some_ : (s.lane l).slots ≠ []) :
    let gone := (s.lane l).slots.filter Slot.unissued
    let t := openAnswered l tag s
    let p : LaneState := { (s.lane l).leaving tag with
      slots := (s.lane l).slots.map fun q => if q.unissued then q.cancelled else q }
    GivesUp l gone s t ∧ (∀ q ∈ gone, t.Unwaited l q.tag) ∧ ∃ xs, t.lane l = { p with stream := xs }
      ∧ ((s.lane l).handedStream = (s.lane l).stream → xs = p.handedStream) := by
  intro gone t p
  set u := s.setLane l ((s.lane l).leaving tag) with hu
  have lane : u.lane l = (s.lane l).leaving tag := setLane_lane_self s l _
  obtain ⟨gives, unwaited, xs, record, handed⟩ := cancelEach (l := l) gone (s := u) (by rw [lane]; exact tags)
    (filter_tags_nodup tags _) (fun q hq => by rw [lane]; exact (List.mem_filter.1 hq).1)
    (fun q hq e => by
      have := (List.mem_filter.1 hq).2
      simp [Slot.unissued, e] at this)
    (by rw [lane]; exact fun e => by cases e)
  rw [lane] at record handed
  have cancelled : cancelAll ((s.lane l).leaving tag).slots gone
      = (s.lane l).slots.map fun q => if q.unissued then q.cancelled else q := cancelAll_filter tags _
  rw [cancelled] at record handed
  have same : t = forEach (gone.map (·.tag)) (fun tag => completeSlot l tag .cancelled) u := by
    have opened : t = closeDrain l (forEach ((u.lane l).unissuedTags) (fun tag => completeSlot l tag .cancelled) u) := by
      show openAnswered l tag s = _
      unfold openAnswered
      rw [updLane_eq_setLane]
      rfl
    rw [opened]
    have unissuedTags : (u.lane l).unissuedTags = gone.map (·.tag) := by rw [lane]; rfl
    rw [unissuedTags]
    refine closeDrain_of_open (.inr ?_)
    rw [record]
    exact fun e => some_ (List.map_eq_nil_iff.1 e)
  rw [same]
  have opened : GivesUp l [] s u := by
    have := GivesUp.updLane s l fun _ => (s.lane l).leaving tag
    rwa [updLane_eq_setLane] at this
  exact ⟨opened.nil_trans gives, unwaited, xs, record, handed⟩

/-- A drain of kind ANSWERED that opens on an empty list closes in the same change (R12). -/
theorem openAnswered_of_empty {l : Lane} {tag : Tag} {s : State} (empty : (s.lane l).slots = [])
    (stage : s.mgmt.stage = .none) (free : s.notAwaited l) :
    openAnswered l tag s = s.setLane l ((s.lane l).leaving tag).detach := by
  have lane : (s.setLane l ((s.lane l).leaving tag)).lane l = (s.lane l).leaving tag := setLane_lane_self s l _
  have none_ : ((s.lane l).leaving tag).unissuedTags = [] := by
    simp [LaneState.unissuedTags, LaneState.leaving, empty]
  unfold openAnswered
  rw [updLane_eq_setLane]
  show closeDrain l (forEach ((s.setLane l ((s.lane l).leaving tag)).lane l).unissuedTags _
    (s.setLane l ((s.lane l).leaving tag))) = _
  rw [lane, none_]
  show closeDrain l (s.setLane l ((s.lane l).leaving tag)) = _
  rw [closeDrain_of_empty (by rw [lane]; rfl) (by rw [lane]; exact empty),
    enterDetached_of_notAwaited (s := s.setLane l ((s.lane l).leaving tag)) stage free, lane, setLane_setLane]

end Sys2Proof.Machine

open Sys2Proof Sys2Proof.Machine in
/-- Settles O9, by the cases of `takeLeave`; the drain it opens is `openAnswered_effect`. -/
theorem leaveIsAnswered : Obligations.LeaveIsAnswered := by
  intro lane tag number s l r a gone answered run up claim
  refine ⟨fun busy => congrArg Host.Outcome.next (sessionParcel_of_busy up claim busy), fun free => ?_⟩
  have ran : run = .next (takeLeave l tag number s) :=
    congrArg Host.Outcome.next (sessionParcel_of_free up claim free)
  rw [ran]
  refine ⟨fun stage => ?_, fun stage => ⟨fun detached => ?_, fun draining => ?_, fun joined => ?_⟩⟩
  · simp [takeLeave, restarting_of_stage stage, handItem_eq_setLane, answered, r]
  · have : (s.lane l).session = .detached := detached
    simp [takeLeave, (restarting_iff s).2 stage, this, handItem_eq_setLane, answered, r]
  · have : (s.lane l).session = .draining := draining
    simp [takeLeave, (restarting_iff s).2 stage, this, handItem_eq_setLane, answered, r]
  · have joined : (s.lane l).session = .active ∨ (s.lane l).session = .suspended := joined
    have away : (s.lane l).session ≠ .detached := fun e => by rw [e] at joined; simp at joined
    have open_ : (s.lane l).session ≠ .draining := fun e => by rw [e] at joined; simp at joined
    have opens : number = r.number → takeLeave l tag number s = openAnswered l tag s := fun same => by
      have same : number = (s.lane l).number := same
      simp [takeLeave, (restarting_iff s).2 stage, away, open_, same]
    refine ⟨fun stale => ?_, fun same empty awaited => ?_, fun same some_ tags => ?_⟩
    · have stale : number ≠ (s.lane l).number := stale
      simp [takeLeave, (restarting_iff s).2 stage, away, open_, stale, handItem_eq_setLane, answered, r]
    · rw [opens same, openAnswered_of_empty empty stage awaited, detach_of_answered (tag := tag) rfl rfl]
      rfl
    · rw [opens same]
      obtain ⟨gives, unwaited, xs, record, handed⟩ := openAnswered_effect (l := l) (tag := tag) tags some_
      generalize openAnswered l tag s = t at *
      refine ⟨t, rfl, by rw [record]; rfl, by rw [record]; rfl, by rw [record]; rfl, by rw [record]; rfl,
        by rw [record]; rfl, by rw [record]; rfl, by rw [record]; rfl, by rw [record]; rfl,
        fun q hq => noWaiterOf_iff.2 (unwaited q hq), gives.cache, gives.area, gives.areas, gives.staging,
        fun h head => ⟨fun unissued free => ?_, fun issued settled => ?_⟩, gives.others, gives.mgmt, gives.faults,
        gives.link, gives.agents, gives.windows, gives.classes, gives.port⟩
      · have waiting : h.stage ≠ .complete := fun e => by simp [Slot.unissued, e] at unissued
        rw [record]
        refine (handed (handedStream_of_not_due fun q hq => ?_)).trans
          (handedStream_of_due (q := h.cancelled) ?_ rfl free)
        · rw [Option.some.inj (hq.symm.trans head)]
          exact waiting
        · exact (List.head?_map ..).trans ((congrArg _ head).trans (congrArg some (if_pos unissued)))
      · rw [record]
        exact (handed (handedStream_of_settled head settled)).trans (handedStream_of_settled
          (r := { r.leaving tag with slots := r.slots.map fun q => if q.unissued then q.cancelled else q })
          ((List.head?_map ..).trans ((congrArg _ head).trans (congrArg some (if_neg (by rw [issued]; decide)))))
          settled)
end

section
/-! Outcomes of memory transactions that hand no answer (O46): the first of two, and the last in DRAINING SILENT. -/

namespace Sys2Proof.Machine

/-! ### A piece takes its outcome (R31, R96) -/

/-- The piece once it has taken its outcome: its status, and no id (R31). -/
def Piece.taken (st : PieceStatus) (p : Piece) : Piece := { p with status := st, memId := none }

theorem slot?_updPiece {s : State} {ref : PieceRef} {q : Slot} (f : Piece → Piece)
    (found : s.slot? ref.lane ref.tag = some q) :
    (s.updPiece ref f).slot? ref.lane ref.tag = some (q.modifyPiece ref f) := by
  have upd := slot?_updSlot_self (s.lane ref.lane) ref.tag (fun q => q.modifyPiece ref f) fun _ => rfl
  rw [show (s.lane ref.lane).slot? ref.tag = some q from found] at upd
  rw [updPiece_eq]
  unfold State.slot?
  rw [updSlot_lane_self]
  exact upd

theorem pieceStart_modifyPiece {q : Slot} (ref : PieceRef) {f : Piece → Piece} (keeps : ∀ p, (f p).length = p.length)
    (upper : Bool) : (q.modifyPiece ref f).pieceStart upper = q.pieceStart upper := by
  have same : ((q.modifyPiece ref f).pieces.head?.map (·.length)) = q.pieces.head?.map (·.length) := by
    unfold Slot.modifyPiece
    cases q.pieces with
    | nil => simp
    | cons x xs =>
      cases ref.place with
      | zero => exact congrArg some (keeps x)
      | succ n => rfl
  unfold Slot.pieceStart
  rw [same]

/-- A slot changed twice under one tag. -/
theorem updSlot_updSlot (r : LaneState) (tag : Tag) {f g : Slot → Slot} (keeps : ∀ q, (f q).tag = q.tag) :
    (r.updSlot tag f).updSlot tag g = r.updSlot tag fun q => g (f q) := by
  unfold LaneState.updSlot
  rw [List.map_map]
  congr 1
  refine List.map_congr_left fun p _ => ?_
  by_cases e : p.tag = tag <;> simp [e, keeps]

/-- The state in which the piece has taken its outcome, before its slot is settled. -/
def State.pieceTaken (s : State) (ref : PieceRef) (o : Outcome) (txn : Transaction) (beats : List Beat) : State :=
  let t := s.updPiece ref (Piece.taken o.pieceStatus)
  match txn.dir with
  | .read => if o.carriedOut then fillPiece ref.lane ref.tag ref.upper txn.masks beats t else t
  | .write => t

theorem pieceOutcome_eq (ref : PieceRef) (o : Outcome) (txn : Transaction) (beats : List Beat) (s : State) :
    pieceOutcome ref o txn beats s = settleSlot ref.lane ref.tag (s.pieceTaken ref o txn beats) := rfl

/-- The slot whose piece has taken this status, with these units. -/
def Slot.taking (q : Slot) (ref : PieceRef) (st : PieceStatus) (held : List HeldUnit) : Slot :=
  { q.modifyPiece ref (Piece.taken st) with held := held }

/-- A piece of the slot has taken its outcome: its slot is another under the same tag, and nothing changes outside its lane's
record, its area and the storage. -/
structure Takes (ref : PieceRef) (q p : Slot) (s t : State) : Prop where
  slot : ∃ f : Slot → Slot, (∀ x, (f x).tag = x.tag) ∧ f q = p ∧ t.lane ref.lane = (s.lane ref.lane).updSlot ref.tag f
  others : ∀ k, k ≠ ref.lane → t.lane k = s.lane k
  areas : ∀ b, b ≠ (s.agent ref.lane).area → t.area b = s.area b
  mgmt : t.mgmt = s.mgmt
  faults : t.faults = s.faults
  timebase : t.timebase = s.timebase
  link : t.link = s.link
  agents : t.agents = s.agents
  windows : t.windows = s.windows
  classes : t.classes = s.classes
  port : t.port = s.port
  portRow : t.portRow = s.portRow
  xlat : t.xlat = s.xlat

/-- The outcome brought data for the piece (R96). -/
def Outcome.fills (o : Outcome) (txn : Transaction) : Prop := txn.dir = .read ∧ o.carriedOut = true

theorem updPiece_takes {ref : PieceRef} {q : Slot} (st : PieceStatus) (s : State) :
    Takes ref q (q.taking ref st q.held) s (s.updPiece ref (Piece.taken st)) where
  slot := ⟨fun x => x.modifyPiece ref (Piece.taken st), fun _ => rfl, rfl, by
    rw [updPiece_eq]
    exact updLane_lane_self s ref.lane _⟩
  others _ hk := updSlot_lane_ne s ref.tag _ hk
  areas _ _ := rfl
  mgmt := rfl
  faults := rfl
  timebase := rfl
  link := rfl
  agents := rfl
  windows := rfl
  classes := rfl
  port := rfl
  portRow := rfl
  xlat := rfl

theorem pieceTaken_of_not_fills {ref : PieceRef} {o : Outcome} {txn : Transaction} (beats : List Beat) {s : State}
    (h : ¬o.fills txn) :
    s.pieceTaken ref o txn beats = s.updPiece ref (Piece.taken o.pieceStatus) := by
  unfold State.pieceTaken
  dsimp only
  split
  · rename_i read
    exact if_neg fun carried => h ⟨read, carried⟩
  · rfl

/-- The area of a READ whose units have been filled (R95, R96). -/
def Area.fill (a : Area) (moved : Nat) : Area :=
  { a with readReserved := a.readReserved - moved, readFilled := a.readFilled + moved }

/-- How many units are filled. -/
def filledCount (held : List HeldUnit) : Nat := (held.filter (·.filled)).length

theorem fillPiece_eq {l : Lane} {tag : Tag} {upper : Bool} {masks : List (BitVec 8)} {beats : List Beat} {s : State}
    {q : Slot} {p : Piece} (found : s.slot? l tag = some q) (piece : q.piece? upper = some p) :
    fillPiece l tag upper masks beats s =
      ((s.updSlot l tag fun q' => { q' with held := fillUnits (q.pieceStart upper) p.length 0 q.held }).withStaging fun m =>
        Memory.put m (q.held.map (·.unit)) (q.pieceStart upper) (maskedBytes masks beats)).updArea (s.agent l).area fun a =>
          a.fill (filledCount (fillUnits (q.pieceStart upper) p.length 0 q.held) - filledCount q.held) := by
  unfold fillPiece
  rw [found]
  dsimp only
  rw [piece]
  rfl

/-- What a piece's outcome with data does: the units under its bytes are filled with them (R96). -/
theorem pieceTaken_of_fills {ref : PieceRef} {o : Outcome} {txn : Transaction} {beats : List Beat} {s : State} {q : Slot}
    {p : Piece} (fills : o.fills txn) (found : s.slot? ref.lane ref.tag = some q) (piece : q.pieces[ref.place]? = some p) :
    let start := q.pieceStart ref.upper
    let held := fillUnits start p.length 0 q.held
    let u := s.pieceTaken ref o txn beats
    Takes ref q (q.taking ref o.pieceStatus held) s u
      ∧ u.area (s.agent ref.lane).area
        = (s.area (s.agent ref.lane).area).fill (filledCount held - filledCount q.held)
      ∧ u.staging = Memory.put s.staging (q.held.map (·.unit)) start (maskedBytes txn.masks beats) := by
  intro start held u
  have found' := slot?_updPiece (Piece.taken o.pieceStatus) found
  have piece' : (q.modifyPiece ref (Piece.taken o.pieceStatus)).piece? ref.upper = some (p.taken o.pieceStatus) := by
    show (q.pieces.modify ref.place _)[ref.place]? = _
    rw [List.getElem?_modify, piece]
    simp
  have start' : (q.modifyPiece ref (Piece.taken o.pieceStatus)).pieceStart ref.upper = start :=
    pieceStart_modifyPiece ref (f := Piece.taken o.pieceStatus) (fun _ => rfl) ref.upper
  have filled : u = fillPiece ref.lane ref.tag ref.upper txn.masks beats (s.updPiece ref (Piece.taken o.pieceStatus)) := by
    show s.pieceTaken ref o txn beats = _
    unfold State.pieceTaken
    rw [fills.1]
    exact if_pos fills.2
  have eq := fillPiece_eq (masks := txn.masks) (beats := beats) found' piece'
  rw [start'] at eq
  rw [filled, eq]
  refine ⟨⟨⟨fun x => { x.modifyPiece ref (Piece.taken o.pieceStatus) with held := held }, fun _ => rfl, rfl, ?_⟩,
    fun k hk => ?_, fun b hb => updArea_area_ne _ _ hb, rfl, rfl, rfl, rfl, rfl, rfl, rfl, rfl, rfl, rfl⟩, updArea_area_self .., rfl⟩
  · rw [updArea_lane, withStaging_lane, updSlot_lane_self, updPiece_eq, updSlot_lane_self]
    exact updSlot_updSlot _ _ fun _ => rfl
  · rw [updArea_lane, withStaging_lane, updSlot_lane_ne _ _ _ hk, updPiece_eq, updSlot_lane_ne _ _ _ hk]

/-! ### The port's report of an outcome -/

/-- Reports have been taken that may suspend this lane, and nothing else has changed but the fault unit. -/
structure Reported (l : Lane) (s t : State) : Prop where
  others : ∀ k, k ≠ l → t.lane k = s.lane k
  lane : ∃ x, t.lane l = { s.lane l with session := x } ∧ ((s.lane l).session ≠ .active → x = (s.lane l).session)
  areas : t.areas = s.areas
  staging : t.staging = s.staging
  mgmt : t.mgmt = s.mgmt
  link : t.link = s.link
  classes : t.classes = s.classes
  port : t.port = s.port

theorem report_reported {rep : Report} {l : Lane} (own : rep.lane = some l) (s : State) : Reported l s (report rep s) := by
  obtain ⟨_, _, link, mgmt, _, _, _, _, areas, staging, classes, port, _⟩ := report_fields rep s
  have lanes : (∀ k, k ≠ l → (report rep s).lane k = s.lane k)
      ∧ ∃ x, (report rep s).lane l = { s.lane l with session := x }
        ∧ ((s.lane l).session ≠ .active → x = (s.lane l).session) := by
    cases asks : s.faults.suspends rep with
    | none =>
      have same : ∀ k, (report rep s).lane k = s.lane k := fun k => by
        simp only [State.lane, report_lanes_of_no_action asks]
      exact ⟨fun k _ => same k, _, same l, fun _ => rfl⟩
    | some k =>
      have e : k = l := by
        unfold FaultUnit.suspends at asks
        split at asks
        · exact Option.some.inj (asks.symm.trans own)
        · cases asks
      subst e
      unfold report
      dsimp only
      rw [asks]
      dsimp only
      unfold suspendLane
      split
      · rename_i active
        have active : (s.lane k).session = .active := by simpa using active
        exact ⟨fun _ hj => updLane_lane_ne _ _ hj, _, updLane_lane_self .., fun h => absurd active h⟩
      · exact ⟨fun _ _ => rfl, _, rfl, fun _ => rfl⟩
  exact ⟨lanes.1, lanes.2, areas, staging, mgmt, link, classes, port⟩

/-- The fault unit after the report of a piece's outcome (R124). -/
def State.outcomeFaults (s : State) (ref : PieceRef) (address : MemAddr) (o : Outcome) : FaultUnit :=
  match o.cause with
  | none => s.faults
  | some c => s.faults.take (s.mgmt.claim == .claimed) s.timebase
      { cause := c, lane := some ref.lane, tag := some ref.tag, mem := some address }

theorem outcomeReport_reported (ref : PieceRef) (address : MemAddr) (o : Outcome) (s : State) :
    Reported ref.lane s (reportAll (outcomeReport (.piece ref) address o) s)
      ∧ (reportAll (outcomeReport (.piece ref) address o) s).faults = s.outcomeFaults ref address o := by
  unfold outcomeReport State.outcomeFaults
  cases o.cause with
  | none => exact ⟨⟨fun _ _ => rfl, ⟨_, rfl, fun _ => rfl⟩, rfl, rfl, rfl, rfl, rfl, rfl⟩, rfl⟩
  | some c => exact ⟨report_reported rfl s, report_faults _ s⟩

/-- An outcome of a piece: the piece takes it, its slot is settled, the port reports, and RESTART may go on. -/
theorem endTransaction_piece (i : MemId) (x : IdState) (ref : PieceRef) (o : Outcome) (txn : Transaction)
    (beats : List Beat) (s : State) :
    endTransaction i x (.piece ref) o txn beats s = restartProgress
      (reportAll (outcomeReport (.piece ref) txn.address o)
        (settleSlot ref.lane ref.tag ((s.setId i x).pieceTaken ref o txn beats))) := by
  show restartProgress (reportAll (outcomeReport (.piece ref) txn.address o ++ []) _) = _
  rw [List.append_nil]
  rfl

/-- What an outcome of a piece comes to outside RESTART: the piece takes it, its slot is settled, and the port reports. -/
theorem endTransaction_of_piece {i : MemId} {x : IdState} {ref : PieceRef} {o : Outcome} {txn : Transaction}
    {beats : List Beat} {s : State}
    (stage : (settleSlot ref.lane ref.tag ((s.setId i x).pieceTaken ref o txn beats)).mgmt.stage = .none) :
    endTransaction i x (.piece ref) o txn beats s =
      reportAll (outcomeReport (.piece ref) txn.address o)
        (settleSlot ref.lane ref.tag ((s.setId i x).pieceTaken ref o txn beats)) := by
  have reported := (outcomeReport_reported ref txn.address o
    (settleSlot ref.lane ref.tag ((s.setId i x).pieceTaken ref o txn beats))).1
  rw [endTransaction_piece]
  exact restartProgress_of_none (by rw [reported.mgmt]; exact stage)

/-- The id of a transaction that has ended with this outcome (R124, R126). -/
def Outcome.leaves : Outcome → IdState
  | .response _ => .free
  | .timeout => .quarantined

/-- The event that brings an outcome. -/
def Outcome.event (o : Outcome) (i : MemId) (beats : List Beat) : Instr :=
  match o with
  | .response st => .memoryResponse i st beats
  | .timeout => .responseTimeout i

/-- An outcome of a piece outside RESTART, as its event brings it. -/
theorem exec_outcome {i : MemId} {ref : PieceRef} {timer : Nat} {o : Outcome} {txn : Transaction} {beats : List Beat}
    {s : State} (inUse : s.memId i = .inUse (.piece ref) timer txn) :
    exec (o.event i beats) s = .next (endTransaction i o.leaves (.piece ref) o txn beats s) := by
  cases o with
  | response st =>
    have ran : memoryResponse i st beats s = endTransaction i .free (.piece ref) (.response st) txn beats s := by
      unfold memoryResponse
      rw [inUse]
    exact congrArg Host.Outcome.next ran
  | timeout =>
    have ran : responseTimeout i s = endTransaction i .quarantined (.piece ref) .timeout txn [] s := by
      unfold responseTimeout
      rw [inUse]
    have noData : ∀ bs, (s.setId i .quarantined).pieceTaken ref .timeout txn bs = _ := fun bs =>
      pieceTaken_of_not_fills bs fun h => absurd h.2 Bool.false_ne_true
    have same : endTransaction i .quarantined (.piece ref) .timeout txn [] s
        = endTransaction i .quarantined (.piece ref) .timeout txn beats s := by
      rw [endTransaction_piece, endTransaction_piece, noData [], noData beats]
    exact congrArg Host.Outcome.next (ran.trans same)

end Sys2Proof.Machine
end

section
/-! The bytes and units of an outcome, and O46. -/

namespace Sys2Proof.Machine

/-! ### Units filled (R96) -/

theorem fillUnits_getElem? (start length : Nat) : ∀ (k : Nat) (us : List HeldUnit) (j : Nat),
    (fillUnits start length k us)[j]?
      = us[j]?.map fun u => { u with filled := u.filled || unitTouched start length (k + j) }
  | _, [], _ => by simp [fillUnits]
  | k, u :: us, 0 => by simp [fillUnits]
  | k, u :: us, j + 1 => by
    rw [fillUnits, List.getElem?_cons_succ, List.getElem?_cons_succ, fillUnits_getElem? start length (k + 1) us j]
    have : k + 1 + j = k + (j + 1) := by omega
    rw [this]

theorem fillUnits_length (start length k : Nat) (us : List HeldUnit) :
    (fillUnits start length k us).length = us.length := by
  have := congrArg List.length (AccountKept.fillUnits_units start length k us)
  rwa [List.length_map, List.length_map] at this

/-- The place of a byte in the units that a slot holds. -/
theorem placeAddress_of_held {held : List HeldUnit} {j : Nat} {u : HeldUnit} (unit : held[j / 64]? = some u) :
    placeAddress (held.map (·.unit)) j = some (u.unit * 64 + j % 64) := by
  show ((held.map (·.unit))[j / 64]?).map _ = _
  rw [List.getElem?_map, unit]
  rfl

theorem held_of_placeAddress {held : List HeldUnit} {j y : Nat} (place : placeAddress (held.map (·.unit)) j = some y) :
    ∃ u, held[j / 64]? = some u ∧ y = u.unit * 64 + j % 64 := by
  obtain ⟨n, hn, e⟩ := Option.map_eq_some_iff.1 place
  rw [List.getElem?_map] at hn
  obtain ⟨u, hu, rfl⟩ := Option.map_eq_some_iff.1 hn
  exact ⟨u, hu, e.symm⟩

/-- Bytes put at places of these units leave every other unit. -/
theorem read_put_of_unit {units : List Nat} {bs : List Byte} {m : Memory} {k y : Nat} (other : y / 64 ∉ units) :
    Memory.read (Memory.put m units k bs) y = Memory.read m y := by
  refine Memory.read_put_ne units y bs m k fun j _ _ e => other ?_
  obtain ⟨u, hu, rfl⟩ := Option.map_eq_some_iff.1 e
  have : (u * Config.unitBytes + j % Config.unitBytes) / 64 = u := by
    simp only [Config.unitBytes]
    omega
  rw [this]
  exact List.mem_of_getElem? hu

/-- What is put into units that are dropped afterwards leaves no trace. -/
theorem dropped_put {units : List Nat} {bs : List Byte} {m n : Memory} {k : Nat}
    (h : Memory.dropped (Memory.put m units k bs) n units) : Memory.dropped m n units := by
  intro y
  rw [h y]
  split
  · rfl
  · rename_i other
    exact read_put_of_unit other

/-- An area that has filled units of a READ and then loses the READ's units has lost them as they were. -/
theorem fill_without {a : Area} {q p : Slot} (read : q.dir = .read) (dir : p.dir = q.dir)
    (length : p.held.length = q.held.length) (more : filledCount q.held ≤ filledCount p.held) :
    (a.fill (filledCount p.held - filledCount q.held)).without [p] = a.without [q] := by
  have le : filledCount p.held ≤ p.held.length := List.length_filter_le ..
  rw [← release_eq_without, ← release_eq_without]
  unfold Area.release
  rw [dir, read]
  unfold Area.fill filledCount at *
  dsimp only
  congr 1 <;> omega

theorem without_taking (a : Area) (q : Slot) (ref : PieceRef) (st : PieceStatus) :
    a.without [q.taking ref st q.held] = a.without [q] := by
  rw [← release_eq_without, ← release_eq_without]
  rfl

/-! ### The slot that has taken the outcome -/

theorem pieceStatus_ne_pending (o : Outcome) : o.pieceStatus ≠ .pending := by
  cases o with
  | response st => cases st <;> decide
  | timeout => decide

theorem Takes.slot? {ref : PieceRef} {q p : Slot} {s t : State} (h : Takes ref q p s t)
    (found : s.slot? ref.lane ref.tag = some q) : t.slot? ref.lane ref.tag = some p := by
  obtain ⟨f, tag, same, lane⟩ := h.slot
  unfold State.slot?
  rw [lane, slot?_updSlot_self _ _ _ tag, show (s.lane ref.lane).slot? ref.tag = some q from found]
  exact congrArg some same

/-- The slot that has taken the outcome gives up its units as the slot before it would have. -/
theorem Takes.gives {ref : PieceRef} {q p : Slot} {s t u : State} (h : Takes ref q p s t)
    (units : p.held.map (·.unit) = q.held.map (·.unit))
    (area : (t.area (s.agent ref.lane).area).without [p] = (s.area (s.agent ref.lane).area).without [q])
    (staging : ∀ n, Memory.dropped t.staging n (q.held.map (·.unit)) → Memory.dropped s.staging n (q.held.map (·.unit)))
    (gives : GivesUp ref.lane [p] t u) : GivesUp ref.lane [q] s u := by
  have agent : t.agent ref.lane = s.agent ref.lane := by simp only [State.agent, h.agents]
  have one : ∀ x : Slot, unitsOf [x] = x.held.map (·.unit) := fun x => by simp [unitsOf]
  refine ⟨fun k hk => (gives.others k hk).trans (h.others k hk), ?_, fun b hb => ?_, ?_, gives.mgmt.trans h.mgmt,
    gives.faults.trans h.faults, gives.link.trans h.link, gives.agents.trans h.agents, gives.windows.trans h.windows,
    gives.classes.trans h.classes, gives.port.trans h.port, gives.cache.trans (by rw [h.xlat]),
    (RestSame.of_same h.port h.xlat h.portRow).trans gives.rest, fun p hp => ?_⟩
  · rw [← area, ← agent]
    exact gives.area
  · exact (gives.areas b (by rw [agent]; exact hb)).trans (h.areas b hb)
  · have dropped := gives.staging
    rw [one, units] at dropped
    rw [one]
    exact staging _ dropped
  · rw [← allWaiters_congr h.xlat]
    exact gives.waiters p hp

/-- What a piece's outcome leaves: another slot under the tag, and its units and bytes as the transaction brought them. -/
theorem pieceTaken_cases {ref : PieceRef} {o : Outcome} {txn : Transaction} (beats : List Beat) {s : State} {q : Slot}
    {p : Piece} (found : s.slot? ref.lane ref.tag = some q) (piece : q.pieces[ref.place]? = some p) :
    let a := (s.agent ref.lane).area
    let u := s.pieceTaken ref o txn beats
    ∃ held, Takes ref q (q.taking ref o.pieceStatus held) s u
      ∧ (¬o.fills txn → held = q.held ∧ u.area a = s.area a ∧ u.staging = s.staging)
      ∧ (o.fills txn → held = fillUnits (q.pieceStart ref.upper) p.length 0 q.held
          ∧ u.area a = (s.area a).fill (filledCount held - filledCount q.held)
          ∧ u.staging = Memory.put s.staging (q.held.map (·.unit)) (q.pieceStart ref.upper)
              (maskedBytes txn.masks beats)) := by
  intro a u
  by_cases fills : o.fills txn
  · obtain ⟨takes, area, staging⟩ := pieceTaken_of_fills (beats := beats) fills found piece
    exact ⟨_, takes, fun none_ => absurd fills none_, fun _ => ⟨rfl, area, staging⟩⟩
  · have same : u = _ := pieceTaken_of_not_fills (ref := ref) beats fills
    rw [same]
    exact ⟨q.held, updPiece_takes _ s, fun _ => ⟨rfl, rfl, rfl⟩, fun some_ => absurd some_ fills⟩

/-- An outcome's slot takes with it, when it goes, what the slot before it would have taken. -/
theorem pieceTaken_effect {ref : PieceRef} {o : Outcome} {txn : Transaction} (beats : List Beat) {s : State} {q : Slot}
    {p : Piece} (found : s.slot? ref.lane ref.tag = some q) (piece : q.pieces[ref.place]? = some p)
    (dir : txn.dir = q.dir) :
    let a := (s.agent ref.lane).area
    let u := s.pieceTaken ref o txn beats
    ∃ held, Takes ref q (q.taking ref o.pieceStatus held) s u ∧ held.map (·.unit) = q.held.map (·.unit)
      ∧ (u.area a).without [q.taking ref o.pieceStatus held] = (s.area a).without [q]
      ∧ (∀ n, Memory.dropped u.staging n (q.held.map (·.unit)) → Memory.dropped s.staging n (q.held.map (·.unit))) := by
  intro a u
  obtain ⟨held, takes, plain, filled⟩ := pieceTaken_cases (o := o) (txn := txn) beats found piece
  refine ⟨held, takes, ?_⟩
  by_cases fills : o.fills txn
  · obtain ⟨rfl, area, staging⟩ := filled fills
    refine ⟨AccountKept.fillUnits_units .., ?_, fun n h => ?_⟩
    · rw [area]
      exact fill_without (dir.symm.trans fills.1) rfl (fillUnits_length ..) (AccountKept.fillUnits_filled ..)
    · rw [staging] at h
      exact dropped_put h
  · obtain ⟨rfl, area, staging⟩ := plain fills
    refine ⟨rfl, ?_, fun n h => ?_⟩
    · rw [area]
      exact without_taking _ _ _ _
    · rwa [staging] at h

/-- A slot with a piece that waits for its outcome stays ISSUED (R31). -/
theorem settleSlot_of_pending {l : Lane} {tag : Tag} {s : State} {q : Slot} (found : s.slot? l tag = some q) {k : Nat}
    {x : Piece} (piece : q.pieces[k]? = some x) (pending : x.status = .pending) : settleSlot l tag s = s := by
  unfold settleSlot
  rw [found]
  refine if_neg fun settled => ?_
  rw [Bool.and_eq_true, List.all_eq_true] at settled
  have := settled.2 x (List.mem_of_getElem? piece)
  rw [pending] at this
  exact absurd this (by decide)

/-- A slot whose pieces all have their outcomes is discarded in DRAINING SILENT (R41). -/
theorem settleSlot_of_silent {l : Lane} {tag : Tag} {s : State} {q : Slot} (found : s.slot? l tag = some q)
    (issued : q.stage = .issued) (done : ∀ x ∈ q.pieces, x.status ≠ .pending) (silent : (s.lane l).drain = .silent) :
    settleSlot l tag s = afterLeaving l (discardSlot l tag s) := by
  unfold settleSlot
  rw [found]
  have settled : (q.stage == .issued && q.pieces.all fun p => p.status != .pending) = true := by
    rw [Bool.and_eq_true, beq_iff_eq, List.all_eq_true]
    exact ⟨issued, fun x hx => by simpa using done x hx⟩
  dsimp only
  rw [if_pos settled, if_pos (by rw [silent]; rfl)]

/-- The list is empty once its slot has left, exactly if it was its only one. -/
theorem filter_eq_nil_of_only {slots : List Slot} {q : Slot} (tags : (slots.map (·.tag)).Nodup) (mem : q ∈ slots) :
    (slots.filter fun p => p.tag != q.tag) = [] ↔ slots = [q] := by
  obtain ⟨xs, ys, rfl, _, dropped⟩ := split_of_mem tags mem
  rw [dropped]
  constructor
  · intro h
    obtain ⟨rfl, rfl⟩ := List.append_eq_nil_iff.1 h
    rfl
  · intro h
    have length := congrArg List.length h
    rw [List.length_append, List.length_cons, List.length_singleton] at length
    exact List.eq_nil_of_length_eq_zero (by rw [List.length_append]; omega)

/-- The last outcome of a slot in DRAINING SILENT outside RESTART (R41): the slot goes with its units, and its drain closes if its
list is empty. -/
theorem silentOutcome_effect {ref : PieceRef} {o : Outcome} {txn : Transaction} (beats : List Beat) {s : State} {q : Slot}
    {p : Piece} (found : s.slot? ref.lane ref.tag = some q) (tags : (s.lane ref.lane).tags.Nodup)
    (issued : q.stage = .issued) (stage : s.mgmt.stage = .none) (dir : txn.dir = q.dir)
    (piece : q.pieces[ref.place]? = some p) (done : ∀ k x, q.pieces[k]? = some x → k ≠ ref.place → x.status ≠ .pending)
    (draining : (s.lane ref.lane).session = .draining) (silent : (s.lane ref.lane).drain = .silent)
    (open_ : ∀ x ∈ (s.lane ref.lane).slots, x.stage ≠ .complete) :
    let l := ref.lane
    let t := settleSlot l ref.tag (s.pieceTaken ref o txn beats)
    let r : LaneState := { (s.lane l).dropSlot ref.tag with issued := (s.lane l).issued - 1 }
    GivesUp l [q] s { t with mgmt := s.mgmt }
      ∧ ((s.lane l).slots = [q] → t.lane l =
            { r with session := .detached, drain := .none, closingOwed := none, joinReplySent := false, credit := 0
                     creditWaiting := none }
          ∧ s.resetSettled t l)
      ∧ ((s.lane l).slots ≠ [q] → t.lane l = r ∧ t.mgmt = s.mgmt) := by
  intro l t r
  obtain ⟨held, takes, units, area, staging⟩ := pieceTaken_effect beats found piece dir (o := o)
  set u := s.pieceTaken ref o txn beats with hu
  set q' := q.taking ref o.pieceStatus held with hq
  have found' := takes.slot? found
  obtain ⟨f, ftag, fq, lane⟩ := takes.slot
  have idle : (u.lane l).session ≠ .active := by
    rw [lane]
    exact fun e => by
      have := draining.symm.trans e
      cases this
  have done' : ∀ x ∈ q'.pieces, x.status ≠ .pending := fun x hx pending => by
    obtain ⟨k, hk⟩ := List.mem_iff_getElem?.1 hx
    have hk : (q.pieces.modify ref.place (Piece.taken o.pieceStatus))[k]? = some x := hk
    rw [List.getElem?_modify] at hk
    obtain ⟨y, hy, e⟩ := Option.map_eq_some_iff.1 hk
    split at e
    · rw [← e] at pending
      exact absurd pending (pieceStatus_ne_pending o)
    · rename_i other
      exact done k y hy (Ne.symm other) (e ▸ pending)
  have settled : t = afterLeaving l (discardSlot l ref.tag u) :=
    settleSlot_of_silent found' issued done' (by rw [lane]; exact silent)
  have record := discardSlot_record found' (.inl idle)
  have record : (discardSlot l ref.tag u).lane l = r := by
    rw [record, lane, if_pos (show q'.stage = .issued from issued), dropSlot_updSlot _ _ ftag]
    rfl
  have quiet : r.handedStream = r.stream := handedStream_of_not_due fun x hx => by
    have mem : x ∈ r.slots := List.mem_of_mem_head? hx
    exact open_ x (List.mem_filter.1 mem).1
  have record' : (handAnswer l (discardSlot l ref.tag u)).lane l = r := by
    rw [handAnswer_record, record, quiet]
  have gives : GivesUp l [q] s (handAnswer l (discardSlot l ref.tag u)) :=
    takes.gives units area staging ((GivesUp.discardSlot found').trans_nil (GivesUp.handAnswer l _))
  have only : r.slots = [] ↔ (s.lane l).slots = [q] := by
    have left := filter_eq_nil_of_only tags (slot?_mem found)
    rw [slot?_tag found] at left
    exact left
  rw [settled]
  refine ⟨gives.closeDrain stage, fun one => ?_, fun more => ?_⟩
  · obtain ⟨closed, reset⟩ := closeDrain_settled (s := handAnswer l (discardSlot l ref.tag u)) (l := l)
      (by rw [gives.mgmt]; exact stage) (by rw [record']; exact draining) (by rw [record']; exact only.2 one)
    refine ⟨closed.trans ((congrArg LaneState.detach record').trans (detach_of_silent silent)),
      reset.congr gives.mgmt fun k => ?_⟩
    by_cases e : k = l
    · rw [e, record']
      rfl
    · rw [gives.others k e]
  · have same : afterLeaving l (discardSlot l ref.tag u) = handAnswer l (discardSlot l ref.tag u) :=
      closeDrain_of_open (.inr (by rw [record']; exact fun e => more (only.1 e)))
    rw [same]
    exact ⟨record', gives.mgmt⟩

/-- The first of two outcomes leaves its slot ISSUED, with the piece's status (R31). -/
theorem firstOutcome_settled {ref : PieceRef} {o : Outcome} {txn : Transaction} (beats : List Beat) {s : State} {q : Slot}
    {p x : Piece} (found : s.slot? ref.lane ref.tag = some q)
    (piece : q.pieces[ref.place]? = some p) (other : q.pieces[1 - ref.place]? = some x) (pending : x.status = .pending) :
    settleSlot ref.lane ref.tag (s.pieceTaken ref o txn beats) = s.pieceTaken ref o txn beats := by
  obtain ⟨held, takes, _⟩ := pieceTaken_cases (o := o) (txn := txn) beats found piece
  have apart : ref.place ≠ 1 - ref.place := by omega
  refine settleSlot_of_pending (takes.slot? found) (k := 1 - ref.place) (x := x) ?_ pending
  show (q.pieces.modify ref.place _)[1 - ref.place]? = some x
  rw [List.getElem?_modify, other]
  simp [apart]

/-! ### What every outcome of a piece leaves -/

/-- The fault of an outcome, status by status (R124, R126). -/
theorem outcomeFaults_cases (s : State) (ref : PieceRef) (address : MemAddr) (o : Outcome) :
    let fault := fun c : Cause => s.faults.take (s.mgmt.claim == .claimed) s.timebase
      { cause := c, lane := some ref.lane, tag := some ref.tag, mem := some address }
    let u := s.outcomeFaults ref address o
    (o.pieceStatus = .ok → u = s.faults) ∧ (o.pieceStatus = .corrected → u = fault .memCorrected)
      ∧ (o.pieceStatus = .failed → u = fault .memFailed) ∧ (o.pieceStatus = .noTarget → u = fault .memNoTarget)
      ∧ (o.pieceStatus = .timeout → u = fault .memTimeout) := by
  intro fault u
  rcases o with st | _
  · cases st
    · exact ⟨fun _ => rfl, nofun, nofun, nofun, nofun⟩
    · exact ⟨nofun, fun _ => rfl, nofun, nofun, nofun⟩
    · exact ⟨nofun, nofun, fun _ => rfl, nofun, nofun⟩
    · exact ⟨nofun, nofun, nofun, fun _ => rfl, nofun⟩
  · exact ⟨nofun, nofun, nofun, nofun, fun _ => rfl⟩

theorem outcome_fills_iff (o : Outcome) (txn : Transaction) (dir : Dir) (same : txn.dir = dir) :
    o.fills txn ↔ dir = .read ∧ (o.pieceStatus = .ok ∨ o.pieceStatus = .corrected) := by
  unfold Outcome.fills
  rw [same]
  refine and_congr_right fun _ => ?_
  rcases o with st | _
  · cases st <;> decide
  · decide

theorem State.resetSettled.stage {s t : State} {l : Lane} (h : s.resetSettled t l) : t.mgmt.stage = s.mgmt.stage := by
  rcases awaited_or_notAwaited s l with ⟨m, tag, op⟩ | free
  · obtain ⟨forfeit, empty, full⟩ := h.2 m tag op
    cases lost : s.mgmt.forfeit with
    | true => rw [forfeit lost]
    | false =>
      cases reply : s.mgmt.reply with
      | none => rw [empty lost reply]
      | some x => rw [full lost (by rw [reply]; rfl)]
  · rw [h.1 free]

/-- A report leaves a lane that is not ACTIVE. -/
theorem Reported.lane_of_idle {l : Lane} {s t : State} (h : Reported l s t) (idle : (s.lane l).session ≠ .active) :
    t.lane l = s.lane l := by
  obtain ⟨x, lane, same⟩ := h.lane
  rw [lane, same idle]

/-- The parts of the state that no outcome of a piece touches but for the piece's own lane and area. -/
theorem outcome_frame {i : MemId} {ref : PieceRef} {o : Outcome} {txn : Transaction} {beats : List Beat} {s w t : State}
    (settled : settleSlot ref.lane ref.tag ((s.setId i o.leaves).pieceTaken ref o txn beats) = w)
    (reported : reportAll (outcomeReport (.piece ref) txn.address o) w = t)
    (port : w.port = (s.setId i o.leaves).port) (classes : w.classes = s.classes)
    (others : ∀ k, k ≠ ref.lane → w.lane k = s.lane k)
    (areas : ∀ b, b ≠ (s.agent ref.lane).area → w.area b = s.area b) :
    t.memId i = o.leaves ∧ (∀ j, j ≠ i → t.memId j = s.memId j) ∧ t.faults = s.outcomeFaults ref txn.address o
      ∧ (∀ b, b ≠ (s.agent ref.lane).area → t.area b = s.area b) ∧ (∀ k, k ≠ ref.lane → t.lane k = s.lane k)
      ∧ t.classes = s.classes ∧ t.link = s.link := by
  have inner : Inner (s.setId i o.leaves) w := settled ▸ pieceOutcome_inner ref o txn beats _
  obtain ⟨after, faults⟩ := outcomeReport_reported ref txn.address o w
  rw [reported] at after faults
  have memId : ∀ j, t.memId j = (s.setId i o.leaves).memId j := fun j => by
    simp only [State.memId, after.port, port]
  refine ⟨(memId i).trans (setId_memId_self s i _), fun j hj => (memId j).trans (setId_memId_ne s _ hj), ?_,
    fun b hb => ?_, fun k hk => (after.others k hk).trans (others k hk), after.classes.trans classes,
    after.link.trans inner.link⟩
  · rw [faults]
    unfold State.outcomeFaults
    rw [inner.faults, inner.claim, inner.timebase]
    rfl
  · have same : t.area b = w.area b := by simp only [State.area, after.areas]
    exact same.trans (areas b hb)

end Sys2Proof.Machine

open Sys2Proof Sys2Proof.Machine in
/-- Settles O46: the piece takes its outcome, and its slot waits for the other piece or is discarded. -/
theorem outcomesThatAnswerNothing : Obligations.OutcomesThatAnswerNothing := by
  intro i o beats ref timer txn q p s l r a area row start status command carriedOut fault bytes filled common
    inUse found tags issued stage dir piece long
  have status_eq : status = o.pieceStatus := by
    rcases o with st | _
    · cases st <;> rfl
    · rfl
  have command_eq : command = o.event i beats := by cases o <;> rfl
  have place : ref.place = row := rfl
  have found' : (s.setId i o.leaves).slot? ref.lane ref.tag = some q := found
  have shared : ∀ w : State, settleSlot l ref.tag ((s.setId i o.leaves).pieceTaken ref o txn beats) = w →
      w.mgmt.stage = .none → w.port = (s.setId i o.leaves).port → w.classes = s.classes →
      (∀ k, k ≠ l → w.lane k = s.lane k) → (∀ b, b ≠ a → w.area b = s.area b) → (w.lane l).stream = r.stream →
      common (reportAll (outcomeReport (.piece ref) txn.address o) w) := by
    intro w settled none_ port classes others areas stream
    obtain ⟨memId, otherIds, faults, areas, lanes, classes, link⟩ := outcome_frame settled rfl port classes others areas
    obtain ⟨ok, corrected, failed, noTarget, timeout⟩ := outcomeFaults_cases s ref txn.address o
    obtain ⟨x, lane, _⟩ := (outcomeReport_reported ref txn.address o w).1.lane
    have ran := (exec_outcome (beats := beats) (o := o) inUse).trans (congrArg Host.Outcome.next
      (endTransaction_of_piece (by rw [settled]; exact none_)))
    rw [settled] at ran
    refine ⟨command_eq ▸ ran, memId.trans (by cases o <;> rfl), otherIds, ?_, ?_, ?_, ?_, ?_, (congrArg LaneState.stream lane).trans stream,
      areas, lanes, classes, link⟩ <;> rw [status_eq, faults]
    exacts [ok, corrected, failed, noTarget, timeout]
  constructor
  · intro x other pending
    have settled := firstOutcome_settled (o := o) (txn := txn) beats found' piece other pending
    obtain ⟨held, takes, plain, filling⟩ := pieceTaken_cases (o := o) (txn := txn) beats found' piece
    have fills := outcome_fills_iff o txn q.dir dir
    rw [← status_eq] at fills
    generalize (s.setId i o.leaves).pieceTaken ref o txn beats = w at *
    have reported := (outcomeReport_reported ref txn.address o w).1
    have sameArea : ∀ b, (reportAll (outcomeReport (.piece ref) txn.address o) w).area b = w.area b := fun b => by
      simp only [State.area, reported.areas]
    obtain ⟨f, ftag, fq, lane⟩ := takes.slot
    obtain ⟨x', lane', _⟩ := reported.lane
    have stream : (w.lane l).stream = r.stream := by rw [lane]; rfl
    have lane'' := lane'.trans (congrArg (fun r : LaneState => { r with session := x' }) lane)
    refine ⟨_, q.taking ref o.pieceStatus held, shared w settled (by rw [takes.mgmt]; exact stage) takes.port takes.classes
      takes.others takes.areas stream, ?_, issued, rfl, ?_, ?_, by rw [lane'']; rfl, by rw [lane'']; rfl, fun tag other => ?_,
      reported.mgmt.trans takes.mgmt, fun none_ => ?_, fun some_ => ?_⟩
    · exact (congrArg (fun r : LaneState => r.slot? ref.tag) lane').trans (takes.slot? found')
    · rw [status_eq]
      rfl
    · rw [lane'']
      exact updSlot_tags r ref.tag f ftag
    · rw [lane'']
      exact slot?_updSlot_ne r f ftag other
    · obtain ⟨same, area, staging⟩ := plain fun h => none_ (fills.1 h)
      exact ⟨same, (sameArea a).trans area, reported.staging.trans staging⟩
    · obtain ⟨same, area, staging⟩ := filling (fills.2 some_)
      rw [reported.staging, staging]
      refine ⟨?_, fun k u unit => ?_, (sameArea a).trans area, fun once k u b byte unit => ?_, fun y free => ?_⟩
      · exact (congrArg List.length same).trans (fillUnits_length ..)
      · have touched : unitTouched start p.length (0 + k) = decide (start / 64 ≤ k ∧ k ≤ (start + p.length - 1) / 64) := by
          unfold unitTouched
          simp [Config.unitBytes]
        show held[k]? = _
        rw [same, fillUnits_getElem?, unit, ← touched]
        rfl
      · rw [← byte]
        refine Memory.read_put once bytes _ start k _ (List.getElem?_eq_some_iff.1 byte).1 ?_
        exact placeAddress_of_held unit
      · refine Memory.read_put_ne _ y bytes _ start fun j from_ below e => ?_
        obtain ⟨u, unit, rfl⟩ := held_of_placeAddress e
        have place : start + (j - start) = j := by omega
        exact free (j - start) u (by omega) (by rw [place]; exact unit) (by rw [place])
  · intro done draining silent open_
    obtain ⟨gives, last, more⟩ := silentOutcome_effect (s := s.setId i o.leaves) (o := o) beats found' tags issued stage dir
      piece done draining silent open_
    generalize settled : settleSlot l ref.tag ((s.setId i o.leaves).pieceTaken ref o txn beats) = w at *
    have reported := (outcomeReport_reported ref txn.address o w).1
    have left : w.mgmt.stage = .none ∧ (w.lane l).session ≠ .active ∧ (w.lane l).stream = r.stream
        ∧ (w.lane l).slots = (r.dropSlot ref.tag).slots ∧ (w.lane l).issued = r.issued - 1 := by
      by_cases one : r.slots = [q]
      · obtain ⟨lane, reset⟩ := last one
        rw [lane]
        exact ⟨reset.stage.trans stage, nofun, rfl, rfl, rfl⟩
      · obtain ⟨lane, mgmt⟩ := more one
        rw [lane, mgmt]
        exact ⟨stage, fun e => absurd (draining.symm.trans e) (by decide), rfl, rfl, rfl⟩
    obtain ⟨stage', idle, stream, slots, count⟩ := left
    have lane := reported.lane_of_idle idle
    refine ⟨_, shared w rfl stage' gives.port gives.classes gives.others gives.areas stream, ?_, ?_, fun one => ?_,
      fun several => ?_, ?_, ?_⟩
    · rw [lane, slots]
      refine List.filter_congr fun x _ => ?_
      rw [Bool.eq_iff_iff]
      simp
    · rw [lane, count]
    · obtain ⟨gone, reset⟩ := last one
      rw [lane, gone]
      refine ⟨rfl, rfl, rfl, ?_⟩
      unfold State.resetSettled
      rw [reported.mgmt]
      exact reset
    · obtain ⟨stays, mgmt⟩ := more several
      rw [lane, stays, reported.mgmt]
      exact ⟨draining, silent, rfl, mgmt⟩
    · have same : ∀ b, (reportAll (outcomeReport (.piece ref) txn.address o) w).area b = w.area b := fun b => by
        simp only [State.area, reported.areas]
      exact (same a).trans gives.area
    · rw [reported.staging]
      have dropped := gives.staging
      rwa [show unitsOf [q] = q.held.map (·.unit) by simp [unitsOf]] at dropped
end

section
/-! Operations that do not look at the stage of RESTART: they do the same in every stage (R171). -/

namespace Sys2Proof.Machine

/-- The state with this stage of RESTART. -/
def State.staged (s : State) (x : RestartStage) : State := { s with mgmt := { s.mgmt with stage := x } }

/-- The operation does the same in every stage of RESTART, and leaves the stage. -/
def Blind (F : State → State) : Prop := ∀ x s, F (s.staged x) = (F s).staged x

section

variable (s : State) (x : RestartStage)

@[simp] theorem staged_stage : (s.staged x).mgmt.stage = x := rfl
@[simp] theorem staged_op : (s.staged x).mgmt.op = s.mgmt.op := rfl
@[simp] theorem staged_lane (l : Lane) : (s.staged x).lane l = s.lane l := rfl
@[simp] theorem staged_slot? (l : Lane) (tag : Tag) : (s.staged x).slot? l tag = s.slot? l tag := rfl
@[simp] theorem staged_walk (w : WalkNo) : (s.staged x).walk w = s.walk w := rfl
@[simp] theorem staged_faults : (s.staged x).faults = s.faults := rfl
@[simp] theorem staged_xlat : (s.staged x).xlat = s.xlat := rfl
@[simp] theorem staged_staged (y : RestartStage) : (s.staged x).staged y = s.staged y := rfl
@[simp] theorem staged_memoryQuiet : (s.staged x).memoryQuiet = s.memoryQuiet := rfl
@[simp] theorem staged_allDetached : (s.staged x).allDetached = s.allDetached := rfl
@[simp] theorem staged_waiterSlot (p : PieceRef) : (s.staged x).waiterSlot p = s.waiterSlot p := rfl

/-- A choice between two states, in another stage. -/
theorem staged_ite (c : Prop) [Decidable c] (s t : State) (x : RestartStage) :
    (if c then s else t).staged x = if c then s.staged x else t.staged x := apply_ite (fun u : State => u.staged x) ..

theorem staged_self {s : State} {x : RestartStage} (h : s.mgmt.stage = x) : s.staged x = s := by
  subst h
  rfl

end

namespace Blind

theorem comp {F G : State → State} (hF : Blind F) (hG : Blind G) : Blind fun s => G (F s) := fun x s => by
  show G (F (s.staged x)) = _
  rw [hF, hG]

theorem forEach {α : Type} {f : α → State → State} (h : ∀ a, Blind (f a)) : ∀ xs : List α, Blind (forEach xs f)
  | [], _, _ => rfl
  | a :: xs, x, s => by
    show Machine.forEach xs f (f a (s.staged x)) = (Machine.forEach xs f (f a s)).staged x
    rw [h a, forEach h xs]

theorem updLane (l : Lane) (f : LaneState → LaneState) : Blind (·.updLane l f) := fun _ _ => rfl

theorem updSlot (l : Lane) (tag : Tag) (f : Slot → Slot) : Blind (·.updSlot l tag f) := fun _ _ => rfl

theorem handAnswer (l : Lane) : Blind (handAnswer l) := fun x s => by
  unfold Machine.handAnswer
  simp only [staged_lane]
  cases (s.lane l).slots.head? with
  | none => rfl
  | some q =>
    dsimp only
    rw [staged_ite]
    rfl

theorem grantRule (l : Lane) : Blind (grantRule l) := fun x s => by
  unfold Machine.grantRule
  rw [staged_ite]
  rfl

theorem releaseUnits (l : Lane) (tag : Tag) (gone : HeldUnit → Bool) : Blind (releaseUnits l tag gone) := fun x s => by
  unfold Machine.releaseUnits
  simp only [staged_slot?]
  cases s.slot? l tag with
  | none => rfl
  | some q =>
    dsimp only
    cases q.dir with
    | read => rfl
    | write =>
      dsimp only
      rw [← grantRule l x]
      rfl

theorem dropWaiters (l : Lane) (tag : Tag) : Blind (dropWaiters l tag) := fun _ _ => rfl

theorem discardSlot (l : Lane) (tag : Tag) : Blind (discardSlot l tag) := fun x s => by
  unfold Machine.discardSlot
  simp only [staged_slot?]
  cases s.slot? l tag with
  | none => rfl
  | some q =>
    exact ((dropWaiters l tag).comp (releaseUnits l tag _)).comp (updLane l _) x s

theorem freeSlot (l : Lane) (tag : Tag) : Blind (freeSlot l tag) :=
  (releaseUnits l tag fun _ => true).comp (updLane l _)

theorem completeSlot (l : Lane) (tag : Tag) (st : RespStatus) : Blind (completeSlot l tag st) := fun x s => by
  unfold Machine.completeSlot
  simp only [staged_slot?]
  cases s.slot? l tag with
  | none => rfl
  | some q =>
    exact (((updLane l _).comp (dropWaiters l tag)).comp (releaseUnits l tag _)).comp (handAnswer l) x s

theorem updPiece (p : PieceRef) (f : Piece → Piece) : Blind (·.updPiece p f) := fun _ _ => rfl

theorem fillPiece (l : Lane) (tag : Tag) (upper : Bool) (masks : List (BitVec 8)) (beats : List Beat) :
    Blind (fillPiece l tag upper masks beats) := fun x s => by
  unfold Machine.fillPiece
  simp only [staged_slot?]
  cases s.slot? l tag with
  | none => rfl
  | some q =>
    dsimp only
    cases q.piece? upper with
    | none => rfl
    | some p => rfl

theorem pieceTaken (ref : PieceRef) (o : Outcome) (txn : Transaction) (beats : List Beat) :
    Blind (·.pieceTaken ref o txn beats) := fun x s => by
  unfold State.pieceTaken
  dsimp only
  cases txn.dir with
  | read =>
    dsimp only
    rw [staged_ite]
    exact congrArg (fun u => if o.carriedOut = true then u else _) ((updPiece ref _).comp (fillPiece _ _ _ _ _) x s)
  | write => rfl

/-! ### Reports -/

theorem suspendLane (l : Lane) : Blind (suspendLane l) := fun x s => by
  unfold Machine.suspendLane
  rw [staged_ite]
  rfl

theorem report (rep : Report) : Blind (report rep) := fun x s => by
  unfold Machine.report
  simp only [staged_faults]
  cases s.faults.suspends rep with
  | none => rfl
  | some l =>
    dsimp only
    rw [← suspendLane l x]
    rfl

theorem reportAll (reps : List Report) : Blind (reportAll reps) := forEach report reps

/-! ### Walks -/

theorem takeIndex (w : WalkNo) : Blind (takeIndex w) := fun x s => by
  unfold Machine.takeIndex
  simp only [staged_walk, staged_xlat]
  cases s.walk w with
  | none =>
    cases s.xlat.waiting with
    | nil => rfl
    | cons y rest => rfl
  | some y => rfl

theorem takeIndexes : Blind takeIndexes := forEach takeIndex allWalks

theorem failWaiter (st : RespStatus) (p : PieceRef) : Blind (failWaiter st p) :=
  Blind.comp (F := failPiece p) (fun _ _ => rfl) (completeSlot p.lane p.tag st)

theorem failWalk (w : WalkNo) (ws : List PieceRef) : Blind (failWalk w ws) :=
  (Blind.comp (F := (·.setWalk w none)) (fun _ _ => rfl) (forEach (failWaiter _) ws)).comp takeIndexes

theorem queueIfDone (l : Lane) (tag : Tag) : Blind (queueIfDone l tag) := fun _ _ => rfl

end Blind

/-- The state part of a pair with reports is blind, and the reports are the same. -/
def BlindPair (F : State → State × List Report) : Prop := ∀ x s, F (s.staged x) = ((F s).1.staged x, (F s).2)

theorem checkWaiter_blind (e : CacheEntry) (p : PieceRef) (x : RestartStage) (k : State × List Report) :
    checkWaiter e p (k.1.staged x, k.2) = ((checkWaiter e p k).1.staged x, (checkWaiter e p k).2) := by
  unfold checkWaiter
  simp only [staged_waiterSlot]
  cases k.1.waiterSlot p with
  | none => rfl
  | some q =>
    dsimp only
    by_cases permits : e.permits q.dir = true
    · simp only [if_pos permits]
      rfl
    · simp only [if_neg permits]
      rw [Blind.failWaiter]

theorem checkWaiters_blind (e : CacheEntry) (ws : List PieceRef) : BlindPair (checkWaiters e ws) := by
  have fold : ∀ (ws : List PieceRef) (x : RestartStage) (k : State × List Report),
      ws.foldl (fun k p => checkWaiter e p k) (k.1.staged x, k.2)
        = ((ws.foldl (fun k p => checkWaiter e p k) k).1.staged x, (ws.foldl (fun k p => checkWaiter e p k) k).2) := by
    intro ws
    induction ws with
    | nil => exact fun _ _ => rfl
    | cons p ws ih =>
      intro x k
      rw [List.foldl_cons, List.foldl_cons, checkWaiter_blind, ih]
  exact fun x s => fold ws x (s, [])

theorem firstWaiterReport_staged (cause : Cause) (ws : List PieceRef) (x : RestartStage) (s : State) :
    firstWaiterReport cause ws (s.staged x) = firstWaiterReport cause ws s := rfl

theorem walkOutcome_blind (w : WalkNo) (o : Outcome) (value : Beat) (address : MemAddr) :
    BlindPair (walkOutcome w o value address) := fun x s => by
  unfold walkOutcome
  simp only [staged_walk, firstWaiterReport_staged]
  cases s.walk w with
  | none => rfl
  | some y =>
    dsimp only
    by_cases stale : y.stale = true
    · simp only [if_pos stale]
      rfl
    · simp only [if_neg stale]
      by_cases lost : (!o.carriedOut) = true
      · simp only [if_pos lost]
        rw [Blind.failWalk]
      · simp only [if_neg lost]
        cases entryOf y.index value with
        | none =>
          dsimp only
          rw [Blind.failWalk]
        | some e =>
          have checked := checkWaiters_blind e y.waiters x
            ((s.setWalk w none).withXlat fun t => { t with cache := install e t.cache })
          dsimp only
          rw [← Blind.takeIndexes]
          exact congrArg (fun k : State × List Report => (takeIndexes k.1, k.2)) checked

end Sys2Proof.Machine
end

section
/-! RESTART in progress, beside the same state outside RESTART: what R171's test makes of the one from the other. -/

namespace Sys2Proof.Machine

/-- Every lane is DETACHED (R171). -/
def State.away (s : State) : Prop := ∀ l, (s.lane l).session = .detached

/-- The operation of a RESTART that has not ended, in a state that has no stage of it. -/
structure During (o : Operation) (n : Word) (u : State) : Prop where
  stage : u.mgmt.stage = .none
  op : u.mgmt.op = some o
  restarts : u.mgmt.restarts = n
  kind : o.kind = .restart
  running : o.ended = false

/-- The state with RESTARTING, after the test of R171. -/
def State.carried (u : State) : State := restartProgress (u.staged .lanes)

section

variable {u : State}

theorem restartProgress_of_memory {s : State} (stage : s.mgmt.stage = .memory) : restartProgress s = restartMemory s := by
  unfold restartProgress
  rw [if_neg]
  simp [stage]

theorem carried_of_joined (h : ¬u.away) : u.carried = u.staged .lanes := by
  have joined : u.allDetached ≠ true := fun e => h (allDetached_iff.1 e)
  unfold State.carried restartProgress restartMemory
  rw [if_neg (by simpa using joined), if_neg (by simp)]

theorem carried_of_away (h : u.away) : u.carried = restartMemory (u.staged .memory) := by
  have all : u.allDetached = true := allDetached_iff.2 h
  unfold State.carried restartProgress
  rw [if_pos (by simp [all])]
  rfl

theorem carried_of_working (h : u.away) (busy : ¬u.memoryAtRest) : u.carried = u.staged .memory := by
  have working : u.memoryQuiet ≠ true := fun e => busy (memoryQuiet_iff.1 e)
  rw [carried_of_away h]
  unfold restartMemory
  rw [if_neg (by simpa using working)]

theorem carried_of_rest (h : u.away) (rest : u.memoryAtRest) : u.carried = finalChange (u.staged .memory) := by
  have quiet : u.memoryQuiet = true := memoryQuiet_iff.2 rest
  rw [carried_of_away h]
  unfold restartMemory
  rw [if_pos (by simp [quiet])]

end

/-- The first state is the second one while RESTART waits, tested last at some point before. -/
def Waits (s u : State) : Prop := s = u.staged .lanes ∨ (s = u.staged .memory ∧ u.away)

/-- RESTART of the first state has come at most as far as R171 lets the second come. -/
structure Follows (o : Operation) (n : Word) (s u : State) : Prop where
  during : During o n u
  behind : Waits s u ∨ (s = finalChange (u.staged .memory) ∧ u.away ∧ u.memoryAtRest)

theorem Waits.follows {o : Operation} {n : Word} {s u : State} (h : Waits s u) (during : During o n u) : Follows o n s u :=
  ⟨during, .inl h⟩

theorem During.carried {o : Operation} {n : Word} {u : State} (h : During o n u) : Follows o n u.carried u := by
  refine ⟨h, ?_⟩
  by_cases away : u.away
  · by_cases rest : u.memoryAtRest
    · exact .inr ⟨carried_of_rest away rest, away, rest⟩
    · exact .inl (.inr ⟨carried_of_working away rest, away⟩)
  · exact .inl (.inl (carried_of_joined away))

namespace Follows

variable {o : Operation} {n : Word} {s u : State}

/-- After the test of R171 the first state has come as far as the second lets it. -/
theorem tested (h : Follows o n s u) : restartProgress s = u.carried := by
  rcases h.behind with (rfl | ⟨rfl, away⟩) | ⟨rfl, away, rest⟩
  · rfl
  · rw [restartProgress_of_memory rfl, carried_of_away away]
  · rw [restartProgress_of_none (finalChange_stage _), carried_of_rest away rest]

/-- A RESTART that waits for what is still there has come as far as it can. -/
theorem eq_carried (h : Follows o n s u) (strict : Strict s) : s = u.carried := by
  rcases h.behind with (rfl | ⟨rfl, away⟩) | ⟨rfl, away, rest⟩
  · obtain ⟨l, joined⟩ := strict.lanes rfl
    exact (carried_of_joined fun away => joined (away l)).symm
  · exact (carried_of_working away (strict.memory rfl)).symm
  · exact (carried_of_rest away rest).symm

end Follows

/-! ### What the two states have in common, step by step -/

theorem During.congr {o : Operation} {n : Word} {s t : State} (h : During o n s) (stage : t.mgmt.stage = s.mgmt.stage)
    (op : t.mgmt.op = s.mgmt.op) (restarts : t.mgmt.restarts = s.mgmt.restarts) : During o n t :=
  ⟨stage.trans h.stage, op.trans h.op, restarts.trans h.restarts, h.kind, h.running⟩

theorem During.steady {o : Operation} {n : Word} {P : Lane → Prop} {s t : State} (h : During o n s)
    (same : SteadyBut P s t) : During o n t := h.congr (by rw [same.mgmt]) (by rw [same.mgmt]) (by rw [same.mgmt])

/-- No SESSION RESET waits on a lane while the operation is RESTART. -/
theorem During.notAwaited {o : Operation} {n : Word} {u : State} (h : During o n u) (l : Lane) : u.notAwaited l := by
  intro p op reset
  rw [h.op] at op
  cases op
  rw [h.kind] at reset
  cases reset

/-- An operation that does the same in every stage keeps two states together, where it moves no lane to or from DETACHED. -/
theorem Waits.blind {s u : State} {F : State → State} (h : Waits s u) (blind : Blind F)
    (session : ∀ l, (u.lane l).SameSession ((F u).lane l)) : Waits (F s) (F u) := by
  rcases h with rfl | ⟨rfl, away⟩
  · exact .inl (blind _ u)
  · exact .inr ⟨blind _ u, fun l => (session l).detached.2 (away l)⟩

theorem Waits.steady {P : Lane → Prop} {s u : State} {F : State → State} (h : Waits s u) (blind : Blind F)
    (steady : SteadyBut P u (F u)) : Waits (F s) (F u) := h.blind blind steady.session

/-- A lane's entry to DETACHED, with RESTARTING and without. -/
theorem enterDetached_staged {o : Operation} {n : Word} {u : State} (h : During o n u) (l : Lane) :
    enterDetached l (u.staged .lanes) = (enterDetached l u).carried ∧ During o n (enterDetached l u) := by
  have waits : ((u.staged .lanes).updLane l LaneState.detach).resetWaits l = false :=
    resetWaits_eq_false.2 (h.notAwaited l)
  have plain : enterDetached l u = u.updLane l LaneState.detach := by
    rw [enterDetached_of_notAwaited h.stage (h.notAwaited l), updLane_eq_setLane]
  rw [plain]
  refine ⟨?_, h.congr rfl rfl rfl⟩
  unfold enterDetached
  simp only [waits]
  rfl

theorem closeDrain_of_away {s : State} (h : s.away) (l : Lane) : closeDrain l s = s :=
  closeDrain_of_open (.inl (by rw [h l]; decide))

theorem finalChange_lane (s : State) (l : Lane) : (finalChange s).lane l = s.lane l := by
  unfold finalChange
  rw [endOp_fields]
  rfl

theorem finalChange_away {s : State} (h : s.away) : (finalChange s).away := fun l => by
  rw [finalChange_lane]
  exact h l

theorem report_of_away {s : State} (h : s.away) (rep : Report) :
    report rep s = s.withFaults (·.take (s.mgmt.claim == .claimed) s.timebase rep) := by
  unfold report
  split
  · rename_i l _
    unfold suspendLane
    rw [if_neg]
    show ¬((s.lane l).session == .active) = true
    rw [h l]
    decide
  · rfl

theorem finalChange_claim (s : State) : (finalChange s).mgmt.claim = s.mgmt.claim := by
  unfold finalChange endOp settleOp
  repeat' split
  all_goals rfl

theorem finalChange_timebase (s : State) : (finalChange s).timebase = s.timebase := by
  unfold finalChange
  rw [endOp_fields]

/-- An operation settled and a fault recorded go together in either order. -/
theorem settleOp_withFaults (s : State) (f : FaultUnit → FaultUnit) :
    settleOp (s.withFaults f) = (settleOp s).withFaults f := by
  unfold settleOp
  rw [withFaults_mgmt]
  cases s.mgmt.op with
  | none => rfl
  | some o =>
    dsimp only
    split
    · split
      · rfl
      · split <;> rfl
    · rfl

theorem finalChange_withFaults (s : State) (f : FaultUnit → FaultUnit) :
    finalChange (s.withFaults f) = (finalChange s).withFaults f := by
  unfold finalChange endOp
  rw [← settleOp_withFaults]
  rfl

theorem settleOp_settleOp (s : State) : settleOp (settleOp s) = settleOp s := by
  cases op : s.mgmt.op with
  | none => simp [settleOp, op]
  | some o =>
    cases ended : o.ended with
    | false => simp [settleOp, op, ended]
    | true =>
      cases forfeit : s.mgmt.forfeit with
      | true => simp [settleOp, op, ended, forfeit]
      | false => cases reply : s.mgmt.reply <;> simp [settleOp, op, ended, forfeit, reply]

theorem Blind.silencedLane (l : Lane) : Blind (·.silencedLane l) := fun x s =>
  Blind.forEach (discardSlot l) _ x (s.updLane l (LaneState.silenced (s.streamStarted l)))

theorem silencedLane_mgmt (l : Lane) (s : State) : (s.silencedLane l).mgmt = s.mgmt :=
  (SteadyBut.forEach (fun tag u => SteadyBut.discardSlot l tag u) _
    (s.updLane l (LaneState.silenced (s.streamStarted l)))).mgmt

namespace Follows

variable {o : Operation} {n : Word} {s u : State}

/-- A lane whose drain may close. -/
theorem closeDrain (h : Follows o n s u) (l : Lane) : Follows o n (closeDrain l s) (closeDrain l u) := by
  rcases h.behind with (rfl | ⟨rfl, away⟩) | ⟨rfl, away, rest⟩
  · by_cases closes : (u.lane l).session = .draining ∧ (u.lane l).slots = []
    · obtain ⟨draining, empty⟩ := closes
      obtain ⟨staged, during⟩ := enterDetached_staged h.during l
      rw [closeDrain_of_empty (s := u.staged .lanes) draining empty, closeDrain_of_empty draining empty, staged]
      exact during.carried
    · have stays := not_and_or.1 closes
      rw [closeDrain_of_open (s := u.staged .lanes) stays, closeDrain_of_open stays]
      exact h
  · rw [closeDrain_of_away (s := u.staged .memory) away, closeDrain_of_away away]
    exact h
  · rw [closeDrain_of_away (finalChange_away (s := u.staged .memory) away), closeDrain_of_away away]
    exact h

/-- A fault report taken. -/
theorem report (h : Follows o n s u) (rep : Report) : Follows o n (report rep s) (report rep u) := by
  have steady := SteadyBut.report (P := fun _ => False) rep u
  refine ⟨h.during.steady steady, ?_⟩
  rcases h.behind with waits | ⟨rfl, away, rest⟩
  · exact .inl (waits.steady (Blind.report rep) steady)
  · refine .inr ⟨?_, fun l => (steady.session l).detached.2 (away l), (report_rest rep u).atRest rest⟩
    rw [report_of_away (finalChange_away (s := u.staged .memory) away), report_of_away away, finalChange_claim,
      finalChange_timebase]
    exact (finalChange_withFaults (u.staged .memory) _).symm

theorem reportAll : ∀ (reps : List Report) {s u : State}, Follows o n s u →
    Follows o n (reportAll reps s) (reportAll reps u)
  | [], _, _, h => h
  | rep :: reps, _, _, h => reportAll reps (h.report rep)

theorem lane (h : Follows o n s u) (l : Lane) : s.lane l = u.lane l := by
  rcases h.behind with (rfl | ⟨rfl, _⟩) | ⟨rfl, _, _⟩
  · rfl
  · rfl
  · exact finalChange_lane _ l

/-- A joined lane that goes SILENT. -/
theorem silence (h : Follows o n s u) {l : Lane} (joined : (u.lane l).session ≠ .detached) :
    Follows o n (silence l s) (silence l u) := by
  rcases h.behind with (rfl | ⟨rfl, away⟩) | ⟨rfl, away, _⟩
  · have gone := Waits.follows (o := o) (n := n) (.inl (Blind.silencedLane l .lanes u))
      (h.during.congr (by rw [silencedLane_mgmt]) (by rw [silencedLane_mgmt]) (by rw [silencedLane_mgmt]))
    exact gone.closeDrain l
  · exact absurd (away l) joined
  · exact absurd (away l) joined

theorem silenceJoined (h : Follows o n s u) (l : Lane) : Follows o n (silenceJoined l s) (silenceJoined l u) := by
  unfold Machine.silenceJoined
  rw [h.lane l]
  split
  · exact h
  · rename_i joined
    exact h.silence fun e => joined (by rw [e]; rfl)

theorem silenceNew (h : Follows o n s u) (l : Lane) : Follows o n (silenceNew l s) (silenceNew l u) := by
  unfold Machine.silenceNew
  rw [h.lane l]
  split
  · exact h
  · rename_i joined
    exact h.silence fun e => joined (by rw [e]; rfl)

/-- An operation that has ended, settled. -/
theorem settleOp (h : Follows o n s u) : Follows o n (settleOp s) (settleOp u) := by
  have running : ∀ t : State, t.mgmt.op = some o → Machine.settleOp t = t := fun t op => by
    unfold Machine.settleOp
    rw [op]
    exact if_neg (by rw [h.during.running]; decide)
  rw [running u h.during.op]
  rcases h.behind with (rfl | ⟨rfl, away⟩) | ⟨rfl, away, rest⟩
  · rw [running (u.staged .lanes) h.during.op]
    exact h
  · rw [running (u.staged .memory) h.during.op]
    exact h
  · unfold finalChange endOp
    rw [settleOp_settleOp]
    exact ⟨h.during, .inr ⟨rfl, away, rest⟩⟩

end Follows

end Sys2Proof.Machine
end

section
/-! The events of the part while RESTARTING, beside the same events outside RESTART (R171). -/

namespace Sys2Proof.Machine

/-- A state with RESTARTING that waits, and the same state outside RESTART. -/
structure Kin (o : Operation) (n : Word) (s u : State) : Prop where
  during : During o n u
  waits : Waits s u

namespace Kin

variable {o : Operation} {n : Word} {s u : State}

theorem follows (h : Kin o n s u) : Follows o n s u := h.waits.follows h.during

theorem steady {P : Lane → Prop} {F : State → State} (h : Kin o n s u) (blind : Blind F) (same : SteadyBut P u (F u)) :
    Kin o n (F s) (F u) := ⟨h.during.steady same, h.waits.steady blind same⟩

/-- An operation on the engine, the link or the faults that leaves what RESTART is about. -/
theorem plain {F : State → State} (h : Kin o n s u) (blind : Blind F) (during : During o n (F u))
    (lanes : ∀ l, (F u).lane l = u.lane l) : Kin o n (F s) (F u) :=
  ⟨during, h.waits.blind blind fun l => by rw [lanes]; exact .of_eq rfl rfl⟩

/-- A value that does not depend on the stage. -/
theorem value {α : Type} (h : Kin o n s u) {v : State → α} (same : ∀ x (t : State), v (t.staged x) = v t) : v s = v u := by
  rcases h.waits with rfl | ⟨rfl, _⟩
  · exact same _ u
  · exact same _ u

end Kin

namespace Follows

variable {o : Operation} {n : Word} {s u : State}

theorem progress (h : Follows o n s u) : Follows o n (restartProgress s) (restartProgress u) := by
  rw [h.tested, restartProgress_of_none h.during.stage]
  exact h.during.carried

theorem afterLeaving (h : Kin o n s u) (l : Lane) : Follows o n (afterLeaving l s) (afterLeaving l u) :=
  (h.steady (P := fun _ => False) (Blind.handAnswer l) (SteadyBut.handAnswer l u)).follows.closeDrain l

/-! ### Outcomes -/

theorem settleSlot (h : Kin o n s u) (l : Lane) (tag : Tag) : Follows o n (settleSlot l tag s) (settleSlot l tag u) := by
  unfold Machine.settleSlot
  rw [h.value (v := (·.slot? l tag)) fun _ _ => rfl, h.value (v := (·.lane l)) fun _ _ => rfl]
  split
  · exact h.follows
  · split
    · split
      · exact afterLeaving (h.steady (Blind.discardSlot l tag) (SteadyBut.discardSlot l tag u)) l
      · exact (h.steady (P := fun _ => False) (Blind.completeSlot l tag _) (SteadyBut.completeSlot l tag _ u)).follows
    · exact h.follows

theorem pieceTaken (h : Kin o n s u) (ref : PieceRef) (oc : Outcome) (txn : Transaction) (beats : List Beat) :
    Kin o n (s.pieceTaken ref oc txn beats) (u.pieceTaken ref oc txn beats) := by
  refine h.steady (P := fun _ => False) (Blind.pieceTaken ref oc txn beats) ?_
  have first := SteadyBut.updPiece (P := fun _ => False) u ref (Piece.taken oc.pieceStatus)
  unfold State.pieceTaken
  dsimp only
  repeat' split
  · exact first.trans (SteadyBut.fillPiece _ _ _ _ _ _)
  all_goals exact first

theorem handOutcome (h : Kin o n s u) (owner : Owner) (oc : Outcome) (txn : Transaction) (beats : List Beat) :
    Follows o n (handOutcome owner oc txn beats s).1 (handOutcome owner oc txn beats u).1
      ∧ (handOutcome owner oc txn beats s).2 = (handOutcome owner oc txn beats u).2 := by
  cases owner with
  | piece ref => exact ⟨settleSlot (pieceTaken h ref oc txn beats) ref.lane ref.tag, rfl⟩
  | walk w =>
    have used := h.steady (P := fun _ => False) (F := (·.useFree 1)) (fun _ _ => rfl) (.of_lanes rfl rfl)
    have beat := h.value (v := walkBeat beats) fun _ _ => rfl
    have same := walkOutcome_blind w oc (walkBeat beats u) txn.address
    unfold Machine.handOutcome
    dsimp only
    rw [beat]
    refine ⟨(used.steady (P := fun _ => False) (F := fun t => (walkOutcome w oc (walkBeat beats u) txn.address t).1)
      (fun x t => congrArg Prod.fst (same x t)) (SteadyBut.walkOutcome _ _ _ _ _)).follows, ?_⟩
    exact used.value (v := fun t => (walkOutcome w oc (walkBeat beats u) txn.address t).2) fun x t => by
      show (walkOutcome _ _ _ _ (t.staged x)).2 = _
      rw [same x t]

theorem endTransaction (h : Kin o n s u) (i : MemId) (x : IdState) (owner : Owner) (oc : Outcome) (txn : Transaction)
    (beats : List Beat) : Follows o n (endTransaction i x owner oc txn beats s) (endTransaction i x owner oc txn beats u) := by
  have freed := h.steady (P := fun _ => False) (F := (·.setId i x)) (fun _ _ => rfl) (.of_lanes rfl rfl)
  obtain ⟨follows, reports⟩ := handOutcome freed owner oc txn beats
  unfold Machine.endTransaction
  dsimp only
  rw [reports]
  exact (follows.reportAll _).progress

theorem memoryResponse (h : Kin o n s u) (i : MemId) (st : MemStatus) (beats : List Beat) :
    Follows o n (memoryResponse i st beats s) (memoryResponse i st beats u) := by
  unfold Machine.memoryResponse
  rw [h.value (v := (·.memId i)) fun _ _ => rfl]
  split
  · exact endTransaction h _ _ _ _ _ _
  · have freed := h.steady (P := fun _ => False) (F := (·.setId i .free)) (fun _ _ => rfl) (.of_lanes rfl rfl)
    exact (freed.follows.report _).progress
  · exact h.follows.report _

theorem responseTimeout (h : Kin o n s u) (i : MemId) : Follows o n (responseTimeout i s) (responseTimeout i u) := by
  unfold Machine.responseTimeout
  rw [h.value (v := (·.memId i)) fun _ _ => rfl]
  split
  · exact endTransaction h _ _ _ _ _ _
  all_goals exact h.follows

/-! ### Grants -/

theorem grantWalk (h : Kin o n s u) (w : WalkNo) (x : Walk) (ids : List MemId) :
    Follows o n (grantWalk w x ids s) (grantWalk w x ids u) := by
  have row := h.value (v := (·.portRow)) fun _ _ => rfl
  have reports := h.value (v := firstWaiterReport .tableRange x.waiters) fun _ _ => rfl
  unfold Machine.grantWalk
  rw [row, reports]
  split
  · split
    · exact (h.steady (P := fun _ => False) (F := fun t => (t.setWalk w _).setId _ _) (fun _ _ => rfl)
        (.of_lanes rfl rfl)).follows
    · exact h.follows
  · have failed := h.steady (P := fun _ => False) (Blind.failWalk w x.waiters) (SteadyBut.failWalk w x.waiters u)
    exact (failed.follows.reportAll _).progress

/-- A grant while no lane offers a slot. -/
theorem grant (h : Kin o n s u) (noOffer : ∀ l, u.offer l = none) (want : List MemId) :
    Follows o n (grant want s) (grant want u) := by
  have ready := h.value (v := (·.readyWalk)) fun _ _ => rfl
  have free := h.value (v := (·.freeIds)) fun _ _ => rfl
  have choice := h.value (v := (·.laneChoice)) fun _ _ => rfl
  have none_ : ∀ l, s.offer l = none := fun l => (h.value (v := (·.offer l)) fun _ _ => rfl).trans (noOffer l)
  unfold Machine.grant
  rw [ready, free, choice]
  split
  · rename_i w x _
    rw [h.value (v := (·.walkNeeds x)) fun _ _ => rfl, h.value (v := (·.pickIds want (u.walkNeeds x))) fun _ _ => rfl]
    split
    · exact grantWalk h w x _
    · exact h.follows
  · split
    · rename_i l p _
      rw [none_ l, noOffer l]
      exact h.follows
    · exact h.follows

/-! ### The end of a transmission -/

theorem endStream (h : Kin o n s u) (l : Lane) : Follows o n (endStream l s) (endStream l u) := by
  unfold Machine.endStream
  rw [h.value (v := (·.lane l)) fun _ _ => rfl]
  split
  · exact h.follows
  · rename_i item rest _
    have popped := h.steady (P := fun _ => False) (F := (·.updLane l fun r => { r with stream := rest })) (fun _ _ => rfl)
      (SteadyBut.updRecord u l rfl rfl rfl)
    cases item with
    | answer tag => exact afterLeaving (popped.steady (Blind.freeSlot l tag) (SteadyBut.freeSlot l tag _)) l
    | joinReply st _ _ =>
      unfold endItem
      dsimp only
      split
      · exact (popped.steady (P := fun _ => False) (F := (·.updLane l fun r => { r with joinReplySent := true }))
          (fun _ _ => rfl) (SteadyBut.updRecord _ l rfl rfl rfl)).follows
      · exact popped.follows
    | leaveReply _ _ _ => exact popped.follows
    | closing _ _ => exact popped.follows

theorem transmissionEnd (h : Kin o n s u) : Follows o n (transmissionEnd s) (transmissionEnd u) := by
  unfold Machine.transmissionEnd
  rw [h.value (v := (·.link)) fun _ _ => rfl]
  split
  · rename_i x _
    have ended := h.steady (P := fun _ => False) (F := (·.withLink fun k => { k with tx := none })) (fun _ _ => rfl)
      (.of_lanes rfl rfl)
    unfold endSource
    split
    · exact (ended.plain (F := (·.withMgmt fun m => { m with reply := none })) (fun _ _ => rfl)
        (ended.during.congr rfl rfl rfl) fun _ => rfl).follows.settleOp
    · exact (ended.steady (P := fun _ => False) (F := (·.withFaults fun f => { f with notices := f.notices.tail }))
        (fun _ _ => rfl) (.of_lanes rfl rfl)).follows
    · exact (ended.steady (P := fun _ => False) (F := (·.withLink fun k => { k with refusals := k.refusals.tail }))
        (fun _ _ => rfl) (.of_lanes rfl rfl)).follows
    · exact ended.follows
    · exact endStream ended _
  · exact h.follows

/-! ### Link loss -/

theorem forEach {α : Type} {f : α → State → State} (step : ∀ x {s u : State}, Follows o n s u → Follows o n (f x s) (f x u)) :
    ∀ (xs : List α) {s u : State}, Follows o n s u → Follows o n (forEach xs f s) (forEach xs f u)
  | [], _, _, h => h
  | x :: xs, _, _, h => forEach step xs (step x h)

theorem freeCutOff (h : Kin o n s u) : Kin o n (freeCutOff s) (freeCutOff u) := by
  unfold Machine.freeCutOff
  rw [h.value (v := (·.link)) fun _ _ => rfl]
  split
  · split
    · rename_i l _
      rw [h.value (v := (·.lane l)) fun _ _ => rfl]
      split
      · exact h.steady (Blind.freeSlot l _) (SteadyBut.freeSlot l _ u)
      all_goals exact h
    all_goals exact h
  · exact h

theorem linkLoss (h : Kin o n s u) : Follows o n (linkLoss s) (linkLoss u) := by
  have freed := freeCutOff h
  have emptied : Kin o n (emptySources (Machine.freeCutOff s)) (emptySources (Machine.freeCutOff u)) :=
    ⟨freed.during.congr rfl rfl rfl, freed.waits.blind (fun _ _ => rfl) fun l => by
      rw [emptySources_lane]
      exact .of_eq rfl rfl⟩
  have silent := forEach (fun l _ _ h => h.silenceJoined l) allLanes (emptied.follows.report { cause := .linkLost })
  unfold Machine.linkLoss
  exact silent.settleOp

theorem damagedMarker (h : Kin o n s u) : Follows o n (damagedMarker s) (damagedMarker u) := by
  have marked : ∀ f, Kin o n (s.withLink f) (u.withLink f) := fun f =>
    h.steady (P := fun _ => False) (F := (·.withLink f)) (fun _ _ => rfl) (.of_lanes rfl rfl)
  unfold Machine.damagedMarker
  rw [h.value (v := (·.link)) fun _ _ => rfl]
  split
  · exact h.follows
  · exact (marked _).follows
  · split
    · exact linkLoss (marked _)
    · exact (marked _).follows

theorem lossOfSignal (h : Kin o n s u) : Follows o n (lossOfSignal s) (lossOfSignal u) := by
  unfold Machine.lossOfSignal
  rw [h.value (v := (·.link)) fun _ _ => rfl]
  split
  · exact h.follows
  · exact (h.steady (P := fun _ => False) (F := (·.withLink _)) (fun _ _ => rfl) (.of_lanes rfl rfl)).follows
  · exact linkLoss h

end Follows

end Sys2Proof.Machine
end

section
/-! The final change of RESTART (R172), and the events that carry RESTART on (O34). -/

namespace Sys2Proof.Machine

theorem released_of_not_inUse {x : IdState} (h : ∀ owner timer txn, x ≠ .inUse owner timer txn) : x.released = .free := by
  cases x with
  | free => rfl
  | inUse owner timer txn => exact absurd rfl (h owner timer txn)
  | quarantined => rfl

theorem ids_released {s : State} (rest : s.memoryAtRest) : mapVec IdState.released s.port.ids = Vector.replicate 16 .free := by
  refine Vector.ext fun i hi => ?_
  rw [mapVec_getNat, Vector.getElem_replicate]
  exact released_of_not_inUse (rest.1 ⟨i, hi⟩)

theorem walks_freed {s : State} (rest : s.memoryAtRest) : mapVec readyFreed s.xlat.walks = Vector.replicate 2 none := by
  refine Vector.ext fun i hi => ?_
  rw [mapVec_getNat, Vector.getElem_replicate]
  cases walk : s.xlat.walks[i] with
  | none => rfl
  | some x =>
    obtain ⟨ready, _⟩ := rest.2 ⟨i, hi⟩ x walk
    simp [readyFreed, ready]

theorem reopened_eq : BudgetClass.reopened = fun c : BudgetClass =>
    { row := c.row
      holding := false
      windowCount := 0
      holdsLeft := 0
      slotUsed := 0
      windowTimer := if c.row.mode = .off then none else some (c.row.window * 1000)
      slotTimer := if c.row.mode = .off then none else some c.row.slot } := by
  funext c
  simp [BudgetClass.reopened]

/-- The final change before its operation is settled. -/
def State.restartLeft (s : State) : State :=
  { s.restartEnded with mgmt := { s.restartEnded.mgmt with op := s.mgmt.op } }

/-- The final change while the memory port rests. -/
theorem finalChange_of_rest {s : State} (rest : s.memoryAtRest) (x : RestartStage) :
    finalChange (s.staged x) = endOp s.restartLeft := by
  have ids := ids_released rest
  have walks := walks_freed rest
  unfold finalChange State.restartLeft State.restartEnded
  rw [← ids, ← walks, ← reopened_eq]
  rfl

/-- What RESTART comes to (R161, R171, R172), in the words of the statements. -/
theorem carried_cases {u : State} {m : Lane} {tag : Tag} (op : u.mgmt.op = some ⟨.restart, m, tag, false⟩)
    (away : u.away) (rest : u.memoryAtRest) :
    (u.mgmt.forfeit = true → u.carried = u.restartEnded)
      ∧ (u.mgmt.forfeit = false → u.mgmt.reply = none → u.carried = u.restartEnded.replied m tag 0x0E .done 0 [])
      ∧ (u.mgmt.forfeit = false → u.mgmt.reply.isSome → u.carried =
          { u.restartEnded with mgmt := { u.restartEnded.mgmt with op := some ⟨.restart, m, tag, true⟩ } }) := by
  have left : u.restartLeft.mgmt.op = some ⟨.restart, m, tag, false⟩ := op
  rw [carried_of_rest away rest, finalChange_of_rest rest]
  refine ⟨fun forfeit => endOp_of_forfeit left forfeit, fun forfeit reply => endOp_of_empty_slot left forfeit reply,
    fun forfeit reply => endOp_of_full_slot left forfeit reply⟩

/-- A state with RESTARTING and the same state outside RESTART. -/
theorem kin_of_restarting {s : State} (stage : s.mgmt.stage ≠ .none) (law : RestartLaw s) :
    ∃ o, Kin o s.mgmt.restarts s (s.staged .none) ∧ s.mgmt.op = some o := by
  obtain ⟨busy, _, memory⟩ := law
  obtain ⟨⟨m, tag, op⟩, _⟩ := busy stage
  refine ⟨_, ⟨⟨rfl, op, rfl, rfl, rfl⟩, ?_⟩, op⟩
  cases e : s.mgmt.stage with
  | none => exact absurd e stage
  | lanes => exact .inl (by rw [staged_staged, staged_self e])
  | memory => exact .inr ⟨by rw [staged_staged, staged_self e], (memory e).1⟩

/-- With RESTARTING a SESSION RESET is not in progress. -/
theorem resetLaw_of_restarting {s : State} (stage : s.mgmt.stage ≠ .none) (law : RestartLaw s) : ResetLaw s := by
  obtain ⟨m, tag, op⟩ := (law.1 stage).1
  intro l k tag' e
  rw [op] at e
  cases e

theorem StillWaits.withLink (f : LinkPort → LinkPort) (s : State) : StillWaits s (s.withLink f) :=
  .of_same rfl rfl rfl rfl rfl rfl

theorem StillWaits.damagedMarker (s : State) : StillWaits s (damagedMarker s) := by
  unfold Machine.damagedMarker
  split
  · exact .refl s
  · exact .withLink _ s
  · split
    · exact (StillWaits.withLink _ s).trans (.linkLoss _)
    · exact .withLink _ s

theorem StillWaits.lossOfSignal (s : State) : StillWaits s (lossOfSignal s) := by
  unfold Machine.lossOfSignal
  split
  · exact .refl s
  · exact .withLink _ s
  · exact .linkLoss s

/-- Each of the events carries RESTART as far as it comes. -/
theorem event_carried {c : Instr} {s : State} (stage : s.mgmt.stage ≠ .none) (law : RestartLaw s)
    (event : eventOfRestart c) :
    ∃ o t, s.mgmt.op = some o ∧ exec c (s.staged .none) = .next t ∧ During o s.mgmt.restarts t
      ∧ exec c s = .next t.carried := by
  obtain ⟨o, kin, op⟩ := kin_of_restarting stage law
  have waits := loose_of_laws law (resetLaw_of_restarting stage law)
  have done : ∀ {F : State → State}, (∀ t, exec c t = .next (F t)) → StillWaits s (F s) →
      Follows o s.mgmt.restarts (F s) (F (s.staged .none)) →
      ∃ o t, s.mgmt.op = some o ∧ exec c (s.staged .none) = .next t ∧ During o s.mgmt.restarts t
        ∧ exec c s = .next t.carried := fun run still follows =>
    ⟨o, _, op, run _, follows.during, (run s).trans (congrArg _ (follows.eq_carried (still waits).2))⟩
  rcases event with ⟨l, rfl⟩ | ⟨ids, rfl⟩ | ⟨i, st, beats, rfl⟩ | ⟨i, rfl⟩ | rfl | rfl | rfl
  · exact done (fun _ => rfl) (.of_kept (.closeDrain l s)) (kin.follows.closeDrain l)
  · refine done (fun _ => rfl) (.grant ids s) (Follows.grant kin (fun l => ?_) ids)
    cases offered : (s.staged .none).offer l with
    | none => rfl
    | some q => exact absurd (StillWaits.stage_of_offer waits.1 (l := l) offered) stage
  · exact done (fun _ => rfl) (.of_kept (.memoryResponse i st beats s)) (Follows.memoryResponse kin i st beats)
  · exact done (fun _ => rfl) (.of_kept (.responseTimeout i s)) (Follows.responseTimeout kin i)
  · exact done (fun _ => rfl) (.transmissionEnd s) (Follows.transmissionEnd kin)
  · exact done (fun _ => rfl) (.damagedMarker s) (Follows.damagedMarker kin)
  · exact done (fun _ => rfl) (.lossOfSignal s) (Follows.lossOfSignal kin)

end Sys2Proof.Machine

open Sys2Proof Sys2Proof.Machine in
/-- Settles O34: each event does the same in every stage, and R171's test then carries RESTART on. -/
theorem eventsCarryRestartOn : Obligations.EventsCarryRestartOn := by
  intro c s stage law event
  obtain ⟨o, t, op, plain, during, run⟩ := event_carried stage law event
  refine ⟨t, plain, during.stage, during.op.trans op.symm, during.restarts, fun ⟨l, joined⟩ => ?_, fun away busy => ?_,
    fun away rest m tag op' => ?_⟩
  · rw [run, carried_of_joined fun away => joined (away l)]
    rfl
  · rw [run, carried_of_working away busy]
    rfl
  · obtain ⟨discarded, replied, waits⟩ := carried_cases (during.op.trans (op.symm.trans op')) away rest
    exact ⟨fun forfeit => run.trans (congrArg _ (discarded forfeit)),
      fun forfeit reply => run.trans (congrArg _ (replied forfeit reply)),
      fun forfeit reply => run.trans (congrArg _ (waits forfeit reply))⟩
end

section
/-! The lanes silenced in turn: what one lane's turn leaves of the others (R18, R20, R174). -/

namespace Sys2Proof.Machine

/-- What the turn of one lane leaves: the other lanes, the other areas, and its own area while it has no slot. -/
structure Apart (l : Lane) (s t : State) : Prop where
  others : ∀ k, k ≠ l → t.lane k = s.lane k
  areas : ∀ b, b ≠ (s.agent l).area → t.area b = s.area b
  idle : (s.lane l).slots = [] → (t.lane l).slots = [] ∧ ∀ b, t.area b = s.area b
  agents : t.agents = s.agents
  link : t.link = s.link
  engine : s.mgmt.stage = .none → s.notAwaited l → t.mgmt = s.mgmt

theorem Apart.refl (l : Lane) (s : State) : Apart l s s :=
  ⟨fun _ _ => rfl, fun _ _ => rfl, fun h => ⟨h, fun _ => rfl⟩, rfl, rfl, fun _ _ => rfl⟩

/-- What the turns of the other lanes leave of a lane. -/
structure Unturned (l : Lane) (s t : State) : Prop where
  lane : t.lane l = s.lane l
  agents : t.agents = s.agents
  link : t.link = s.link
  alone : s.aloneInArea l → t.aloneInArea l ∧ t.area (s.agent l).area = s.area (s.agent l).area
  engine : s.mgmt.stage = .none → (∀ k, k ≠ l → s.notAwaited k) → t.mgmt = s.mgmt

namespace Unturned

theorem refl (l : Lane) (s : State) : Unturned l s s := ⟨rfl, rfl, rfl, fun h => ⟨h, rfl⟩, fun _ _ => rfl⟩

theorem trans {l : Lane} {s t u : State} (a : Unturned l s t) (b : Unturned l t u) : Unturned l s u := by
  have agent : t.agent l = s.agent l := by simp only [State.agent, a.agents]
  refine ⟨b.lane.trans a.lane, b.agents.trans a.agents, b.link.trans a.link, fun alone => ?_, fun stage free => ?_⟩
  · obtain ⟨alone', area⟩ := a.alone alone
    obtain ⟨alone'', area'⟩ := b.alone alone'
    exact ⟨alone'', by rw [← area, ← agent]; exact area'⟩
  · have first := a.engine stage free
    refine (b.engine (by rw [first]; exact stage) fun k hk => ?_).trans first
    unfold State.notAwaited
    rw [first]
    exact free k hk

end Unturned

theorem Apart.unturned {k l : Lane} {s t : State} (h : Apart k s t) (other : l ≠ k) : Unturned l s t := by
  have agent : ∀ j, t.agent j = s.agent j := fun j => by simp only [State.agent, h.agents]
  refine ⟨h.others l other, h.agents, h.link, fun alone => ⟨fun j hj => ?_, ?_⟩, fun stage free => h.engine stage (free k (Ne.symm other))⟩
  · rw [agent, agent]
    refine (alone j hj).imp_left fun empty => ?_
    by_cases e : j = k
    · subst e
      exact (h.idle empty).1
    · rw [h.others j e]
      exact empty
  · rcases alone k (Ne.symm other) with empty | apart
    · exact (h.idle empty).2 _
    · exact h.areas _ (Ne.symm apart)

/-- The lane's own turn leaves it alone in its area. -/
theorem Apart.alone {l : Lane} {s t : State} (h : Apart l s t) (alone : s.aloneInArea l) : t.aloneInArea l := fun k hk => by
  have agent : ∀ j, t.agent j = s.agent j := fun j => by simp only [State.agent, h.agents]
  rw [h.others k hk, agent, agent]
  exact alone k hk

/-- When every lane has its turn, a lane is as it was before its own, and after it. -/
theorem forEach_turn {F : Lane → State → State} (apart : ∀ l s, Apart l s (F l s)) (l : Lane) (s : State) :
    ∃ u, Unturned l s u ∧ Unturned l (F l u) (forEach allLanes F s) := by
  have others : ∀ (ls : List Lane) (s : State), l ∉ ls → Unturned l s (forEach ls F s) := by
    intro ls
    induction ls with
    | nil => exact fun s _ => .refl l s
    | cons k ks ih =>
      intro s absent
      obtain ⟨other, rest⟩ := not_or.1 fun h => absent (List.mem_cons.2 h)
      exact ((apart k s).unturned other).trans (ih _ rest)
  obtain ⟨before, after, split⟩ := List.append_of_mem (List.mem_finRange l)
  have nodup : (before ++ l :: after).Nodup := split ▸ List.nodup_finRange 16
  obtain ⟨_, tail, disjoint⟩ := List.nodup_append'.1 nodup
  refine ⟨forEach before F s, others before s fun mem => disjoint mem List.mem_cons_self, ?_⟩
  have turns : forEach allLanes F s = forEach after F (F l (forEach before F s)) := by
    unfold forEach allLanes
    rw [split, List.foldl_append]
    rfl
  rw [turns]
  exact others after _ (List.nodup_cons.1 tail).1

/-- While no SESSION RESET waits on a lane, the turns leave the engine. -/
theorem forEach_engine {F : Lane → State → State} (apart : ∀ l s, Apart l s (F l s)) {s : State}
    (stage : s.mgmt.stage = .none) (free : ∀ l, s.notAwaited l) : (forEach allLanes F s).mgmt = s.mgmt := by
  have each : ∀ (ls : List Lane) (t : State), t.mgmt = s.mgmt → (forEach ls F t).mgmt = s.mgmt := by
    intro ls
    induction ls with
    | nil => exact fun _ h => h
    | cons l ls ih =>
      intro t h
      have freeHere : t.notAwaited l := by
        unfold State.notAwaited
        rw [h]
        exact free l
      exact ih _ (((apart l t).engine (by rw [h]; exact stage) freeHere).trans h)
  exact each allLanes s rfl

/-! ### The turn of a lane that goes SILENT -/

/-- A slot discarded, found or not, gives up its units and nothing else outside the lane. -/
theorem discardSlot_gives (l : Lane) (tag : Tag) (s : State) : ∃ gone, GivesUp l gone s (discardSlot l tag s) := by
  cases found : s.slot? l tag with
  | none =>
    have same : discardSlot l tag s = s := by
      unfold discardSlot
      rw [found]
    rw [same]
    exact ⟨[], .refl l s⟩
  | some q => exact ⟨[q], .discardSlot found⟩

theorem discardEach_gives (l : Lane) : ∀ (tags : List Tag) (s : State),
    ∃ gone, GivesUp l gone s (forEach tags (discardSlot l) s)
  | [], s => ⟨[], .refl l s⟩
  | tag :: tags, s => by
    obtain ⟨gone, first⟩ := discardSlot_gives l tag s
    obtain ⟨more, rest⟩ := discardEach_gives l tags (discardSlot l tag s)
    exact ⟨gone ++ more, first.trans rest⟩

theorem silencedLane_gives (l : Lane) (s : State) : ∃ gone, GivesUp l gone s (s.silencedLane l) := by
  obtain ⟨gone, gives⟩ := discardEach_gives l _ (s.updLane l (LaneState.silenced (s.streamStarted l)))
  exact ⟨gone, (GivesUp.updLane s l _).nil_trans gives⟩

/-- A lane without a slot has none to discard. -/
theorem silencedLane_of_empty {l : Lane} {s : State} (empty : (s.lane l).slots = []) :
    s.silencedLane l = s.updLane l (LaneState.silenced (s.streamStarted l)) := by
  have none_ : ((s.updLane l (LaneState.silenced (s.streamStarted l))).lane l).silentTags = [] := by
    rw [updLane_lane_self, silentTags_eq]
    show ((s.lane l).slots.filter _).map _ = []
    rw [empty]
    rfl
  unfold State.silencedLane
  dsimp only
  rw [none_]
  rfl

theorem restartProgress_areas (s : State) : (restartProgress s).areas = s.areas := by
  unfold restartProgress restartMemory finalChange endOp settleOp
  repeat' split
  all_goals rfl

theorem closeDrain_areas (l : Lane) (s : State) : (closeDrain l s).areas = s.areas := by
  unfold closeDrain enterDetached
  split
  · dsimp only
    rw [restartProgress_areas]
    split
    · rw [endOp_fields]
      rfl
    · rfl
  · rfl

theorem closeDrain_slots (l : Lane) (s : State) : ((closeDrain l s).lane l).slots = (s.lane l).slots := by
  unfold closeDrain
  split
  · rw [enterDetached_lane_self]
    rfl
  · rfl

theorem closeDrain_mgmt {l : Lane} {s : State} (stage : s.mgmt.stage = .none) (free : s.notAwaited l) :
    (closeDrain l s).mgmt = s.mgmt := by
  unfold closeDrain
  split
  · exact (enterDetached_settled stage).1 free
  · rfl

theorem silence_apart (l : Lane) (s : State) : Apart l s (silence l s) := by
  obtain ⟨gone, gives⟩ := silencedLane_gives l s
  have inner := closeDrain_inner l (s.silencedLane l)
  have area : ∀ b, (silence l s).area b = (s.silencedLane l).area b := fun b => by
    rw [silence_eq]
    simp only [State.area, closeDrain_areas]
  refine ⟨fun k hk => ?_, fun b hb => (area b).trans (gives.areas b hb), fun empty => ⟨?_, fun b => ?_⟩,
    inner.agents.trans gives.agents, inner.link.trans gives.link, fun stage free => ?_⟩
  · rw [silence_eq, (closeDrain_lanes l _).2 k hk]
    exact gives.others k hk
  · rw [silence_eq, closeDrain_slots, silencedLane_of_empty empty, updLane_lane_self]
    exact empty
  · rw [area, silencedLane_of_empty empty]
    rfl
  · rw [silence_eq, closeDrain_mgmt (by rw [gives.mgmt]; exact stage) (by unfold State.notAwaited; rw [gives.mgmt]; exact free)]
    exact gives.mgmt

theorem silenceNew_apart (l : Lane) (s : State) : Apart l s (silenceNew l s) := by
  unfold silenceNew
  split
  · exact .refl l s
  · exact silence_apart l s

theorem silenceJoined_apart (l : Lane) (s : State) : Apart l s (silenceJoined l s) := by
  unfold silenceJoined
  split
  · exact .refl l s
  · exact silence_apart l s

end Sys2Proof.Machine
end

section
/-! RESTART begins (O32): every lane goes SILENT in turn, outside RESTART first, and the test of R171 follows. -/

namespace Sys2Proof.Machine

/-! ### What the silencing of the lanes does not disturb -/

/-- The memory port, the classes and the cache stay as RESTART looks at them, and no RESTART is in progress. -/
structure Undisturbed (s t : State) : Prop where
  stage : t.mgmt.stage = .none
  port : t.port = s.port
  classes : t.classes = s.classes
  cache : t.xlat.cache = s.xlat.cache
  rest : RestSame s t

theorem Undisturbed.refl {s : State} (stage : s.mgmt.stage = .none) : Undisturbed s s :=
  ⟨stage, rfl, rfl, rfl, .of_same rfl rfl rfl⟩

theorem Undisturbed.trans {s t u : State} (a : Undisturbed s t) (b : Undisturbed t u) : Undisturbed s u :=
  ⟨b.stage, b.port.trans a.port, b.classes.trans a.classes, b.cache.trans a.cache, a.rest.trans b.rest⟩

theorem closeDrain_stage {l : Lane} {s : State} (stage : s.mgmt.stage = .none) : (closeDrain l s).mgmt.stage = .none := by
  unfold closeDrain
  split
  · rcases awaited_or_notAwaited s l with ⟨m, tag, op⟩ | free
    · rw [enterDetached_of_awaited stage op, endOp_stage]
      exact stage
    · rw [enterDetached_of_notAwaited stage free]
      exact stage
  · exact stage

theorem silence_undisturbed (l : Lane) {s : State} (stage : s.mgmt.stage = .none) : Undisturbed s (silence l s) := by
  obtain ⟨gone, gives⟩ := silencedLane_gives l s
  have closed := gives.closeDrain stage
  obtain ⟨ids, walks, row⟩ := closed.rest
  have left : (s.silencedLane l).mgmt.stage = .none := by rw [gives.mgmt]; exact stage
  exact ⟨closeDrain_stage left, closed.port, closed.classes, closed.cache, ids, walks, row⟩

theorem silenceNew_undisturbed (l : Lane) {s : State} (stage : s.mgmt.stage = .none) : Undisturbed s (silenceNew l s) := by
  unfold silenceNew
  split
  · exact .refl stage
  · exact silence_undisturbed l stage

theorem silenceEach_undisturbed : ∀ (ls : List Lane) {s : State}, s.mgmt.stage = .none →
    Undisturbed s (forEach ls silenceNew s)
  | [], _, stage => .refl stage
  | l :: ls, _, stage =>
    have first := silenceNew_undisturbed l stage
    first.trans (silenceEach_undisturbed ls first.stage)

/-! ### A lane that goes SILENT -/

/-- What a SILENT drain leaves of a lane's record, closed or not (R17, R40). -/
structure LaneState.SilentLeft (started : Bool) (r p : LaneState) : Prop where
  slots : p.slots = r.slots.filter Slot.survives
  number : p.number = r.number
  issued : p.issued = r.issued
  stream : p.stream = silentStream started r.stream
  opened : r.slots.filter Slot.survives ≠ [] →
    p.session = .draining ∧ p.drain = .silent ∧ p.closingOwed = none ∧ p.credit = r.credit
  closed : r.slots.filter Slot.survives = [] →
    p.session = .detached ∧ p.drain = .none ∧ p.credit = 0 ∧ p.creditWaiting = none

theorem silence_left {l : Lane} {s : State} (tags : (s.lane l).tags.Nodup) (stage : s.mgmt.stage = .none) :
    (s.lane l).SilentLeft (s.streamStarted l) ((silence l s).lane l)
      ∧ (silence l s).area (s.agent l).area = (s.area (s.agent l).area).without (s.lane l).silentGone := by
  obtain ⟨gives, slots, number, issued, stream, opened, closed⟩ := silence_effect tags stage
  refine ⟨⟨slots, number, issued, stream, fun some_ => ?_, fun none_ => ?_⟩, gives.area⟩
  · obtain ⟨session, drain, owed, credit, _⟩ := opened some_
    exact ⟨session, drain, owed, credit⟩
  · obtain ⟨session, drain, credit, waiting, _⟩ := closed none_
    exact ⟨session, drain, credit, waiting⟩

/-- Every lane that is not SILENT already silenced. -/
def State.allSilent (s : State) : State := forEach allLanes silenceNew s

section

variable {s : State} (l : Lane)

/-- A lane that is DETACHED or SILENT already keeps its record. -/
theorem allSilent_lane_of_silent (h : (s.lane l).session = .detached ∨ (s.lane l).drain = .silent) :
    s.allSilent.lane l = s.lane l := by
  obtain ⟨u, before, after⟩ := forEach_turn silenceNew_apart l s
  have stays : silenceNew l u = u := by
    refine if_pos ?_
    rw [before.lane, Bool.or_eq_true, beq_iff_eq, beq_iff_eq]
    exact h
  rw [stays] at after
  exact after.lane.trans before.lane

/-- Any other lane is left as a SILENT drain leaves it. -/
theorem allSilent_lane_of_open (stage : s.mgmt.stage = .none) (free : ∀ k, s.notAwaited k)
    (joined : (s.lane l).session ≠ .detached) (drain : (s.lane l).drain ≠ .silent) (tags : (s.lane l).tags.Nodup) :
    (s.lane l).SilentLeft (s.streamStarted l) (s.allSilent.lane l)
      ∧ (s.aloneInArea l → s.allSilent.area (s.agent l).area = (s.area (s.agent l).area).without (s.lane l).silentGone) := by
  obtain ⟨u, before, after⟩ := forEach_turn silenceNew_apart l s
  have goes : silenceNew l u = silence l u := by
    refine if_neg ?_
    rw [before.lane, Bool.or_eq_true, beq_iff_eq, beq_iff_eq, not_or]
    exact ⟨joined, drain⟩
  have agent : ∀ k, u.agent k = s.agent k := fun k => by simp only [State.agent, before.agents]
  have started : u.streamStarted l = s.streamStarted l := by unfold State.streamStarted; rw [before.link]
  have engine := before.engine stage fun k _ => free k
  obtain ⟨left, area⟩ := silence_left (s := u) (l := l) (by rw [before.lane]; exact tags) (by rw [engine]; exact stage)
  rw [goes] at after
  rw [before.lane, started, ← after.lane] at left
  refine ⟨left, fun alone => ?_⟩
  obtain ⟨aloneBefore, same⟩ := before.alone alone
  have agentAfter : (silence l u).agent l = u.agent l := by simp only [State.agent, (silence_apart l u).agents]
  have last := (after.alone ((silence_apart l u).alone aloneBefore)).2
  rw [agentAfter, agent] at last
  rw [agent, same, before.lane] at area
  exact last.trans area

end

end Sys2Proof.Machine
end

section
/-! The obligation about the beginning of RESTART (O32). -/

namespace Sys2Proof.Machine

/-! ### The test of R171, once every lane is silenced -/

theorem carried_lane (u : State) (l : Lane) : u.carried.lane l = u.lane l := restartProgress_lane _ l

theorem carried_area (u : State) (a : Fin 16) : u.carried.area a = u.area a := by
  have areas : u.carried.areas = u.areas := restartProgress_areas _
  simp only [State.area, areas]

/-- RESTART with its lanes silenced, as it would be outside RESTARTING. -/
def State.restartSilent (s : State) (rq : MgmtRequest) : State := ((s.restartBegun rq).staged .none).allSilent

section

variable {rq : MgmtRequest} {s : State}

theorem restartSilent_undisturbed (rq : MgmtRequest) (s : State) :
    Undisturbed ((s.restartBegun rq).staged .none) (s.restartSilent rq) := silenceEach_undisturbed allLanes rfl

theorem restartBegun_notAwaited (rq : MgmtRequest) (s : State) (l : Lane) :
    ((s.restartBegun rq).staged .none).notAwaited l := by
  intro o op reset
  cases op
  cases reset

theorem restartSilent_mgmt (rq : MgmtRequest) (s : State) :
    (s.restartSilent rq).mgmt = { s.mgmt with op := some ⟨.restart, rq.lane, rq.tag, false⟩, stage := .none } :=
  forEach_engine silenceNew_apart (s := (s.restartBegun rq).staged .none) rfl (restartBegun_notAwaited rq s)

/-- RESTART is the test of R171 on the lanes silenced outside RESTARTING. -/
theorem restart_carried (rq : MgmtRequest) (s : State) : restart rq s = (s.restartSilent rq).carried := by
  have during : During ⟨.restart, rq.lane, rq.tag, false⟩ s.mgmt.restarts ((s.restartBegun rq).staged .none) :=
    ⟨rfl, rfl, rfl, rfl, rfl⟩
  have start := Waits.follows (s := s.restartBegun rq) (.inl rfl) during
  rw [restart_eq]
  exact (Follows.forEach (fun l _ _ h => h.silenceNew l) allLanes start).tested

theorem restart_inner (rq : MgmtRequest) (s : State) : Inner (s.restartBegun rq) (restart rq s) := by
  rw [restart_eq]
  exact (forEach_inner silenceNew silenceNew_inner allLanes _).trans (restartProgress_inner _)

/-- The memory port rests after the lanes are silenced exactly when it did before. -/
theorem restartSilent_atRest : (s.restartSilent rq).memoryAtRest ↔ s.memoryAtRest := by
  have same := (restartSilent_undisturbed rq s).rest
  exact ⟨fun rest => same.symm.atRest rest, fun rest => same.atRest (s := (s.restartBegun rq).staged .none) rest⟩

theorem restart_lane (l : Lane) : (restart rq s).lane l = (s.restartSilent rq).lane l := by
  rw [restart_carried, carried_lane]

/-- A lane that is DETACHED or SILENT already stays as it is (log 28). -/
theorem restart_lane_of_silent {l : Lane} (h : (s.lane l).session = .detached ∨ (s.lane l).drain = .silent) :
    (restart rq s).lane l = s.lane l :=
  restart_lane l |>.trans (allSilent_lane_of_silent (s := (s.restartBegun rq).staged .none) l h)

/-- Any other lane is left as a SILENT drain leaves it. -/
theorem restart_lane_of_open {l : Lane} (joined : (s.lane l).session ≠ .detached) (drain : (s.lane l).drain ≠ .silent)
    (tags : (s.lane l).tags.Nodup) :
    (s.lane l).SilentLeft (s.streamStarted l) ((restart rq s).lane l)
      ∧ (s.aloneInArea l → (restart rq s).area (s.agent l).area =
          (s.area (s.agent l).area).without (s.lane l).silentGone) := by
  have left := allSilent_lane_of_open (s := (s.restartBegun rq).staged .none) l rfl (restartBegun_notAwaited rq s)
    joined drain tags
  rw [restart_lane, restart_carried, carried_area]
  exact left

/-- The port, the classes and the cache as they were. -/
theorem restartSilent_same (rq : MgmtRequest) (s : State) :
    (s.restartSilent rq).port = s.port ∧ (s.restartSilent rq).classes = s.classes
      ∧ (s.restartSilent rq).xlat.cache = s.xlat.cache := by
  obtain ⟨_, port, classes, cache, _⟩ := restartSilent_undisturbed rq s
  exact ⟨port, classes, cache⟩

/-- A lane with a slot that is ISSUED or SENDING is joined after it as well. -/
theorem restart_joined {l : Lane} {q : Slot} (mem : q ∈ (s.lane l).slots) (joined : (s.lane l).session ≠ .detached)
    (stays : q.stage = .issued ∨ q.stage = .sending) (tags : (s.lane l).tags.Nodup) :
    ((s.restartSilent rq).lane l).session ≠ .detached := by
  rw [← restart_lane]
  by_cases silent : (s.lane l).drain = .silent
  · rw [restart_lane_of_silent (.inr silent)]
    exact joined
  · have survives : q.survives = true := by rcases stays with e | e <;> simp [Slot.survives, e]
    have kept : (s.lane l).slots.filter Slot.survives ≠ [] :=
      List.ne_nil_of_mem (List.mem_filter.2 ⟨mem, survives⟩)
    obtain ⟨draining, _⟩ := (restart_lane_of_open (rq := rq) joined silent tags).1.opened kept
    rw [draining]
    decide

/-- While a slot stays the stage is LANES (R171). -/
theorem restart_of_joined {l : Lane} (joined : ((s.restartSilent rq).lane l).session ≠ .detached) :
    (restart rq s).mgmt = { s.mgmt with op := some ⟨.restart, rq.lane, rq.tag, false⟩, stage := .lanes }
      ∧ (restart rq s).port = s.port ∧ (restart rq s).classes = s.classes := by
  have mgmt := restartSilent_mgmt rq s
  obtain ⟨port, classes, _⟩ := restartSilent_same rq s
  rw [restart_carried]
  generalize s.restartSilent rq = u at *
  rw [carried_of_joined fun away => joined (away l)]
  exact ⟨congrArg (fun m : Mgmt => { m with stage := .lanes }) mgmt, port, classes⟩

/-- With no slot that stays, every lane is DETACHED. -/
theorem restart_detached (tags : TagLaw s)
    (none_ : ∀ l, (s.lane l).session ≠ .detached → (s.lane l).drain ≠ .silent
      ∧ ∀ q ∈ (s.lane l).slots, q.stage ≠ .issued ∧ q.stage ≠ .sending) : (restart rq s).away := fun l => by
  by_cases joined : (s.lane l).session = .detached
  · rw [restart_lane_of_silent (.inl joined)]
    exact joined
  · obtain ⟨drain, slots⟩ := none_ l joined
    have empty : (s.lane l).slots.filter Slot.survives = [] := List.filter_eq_nil_iff.2 fun q hq survives => by
      obtain ⟨issued, sending⟩ := slots q hq
      rw [Slot.survives, Bool.or_eq_true, beq_iff_eq, beq_iff_eq] at survives
      exact survives.elim issued sending
    exact ((restart_lane_of_open (rq := rq) joined drain (tags l)).1.closed empty).1

theorem restartSilent_away (away : (restart rq s).away) : (s.restartSilent rq).away := fun l => by
  rw [← restart_lane]
  exact away l

/-- With every lane DETACHED the stage is MEMORY while the memory port is at work (R171). -/
theorem restart_of_working (away : (s.restartSilent rq).away) (busy : ¬s.memoryAtRest) :
    restart rq s = (s.restartSilent rq).staged .memory := by
  rw [restart_carried, carried_of_working away fun rest => busy (restartSilent_atRest.1 rest)]

/-- With every lane DETACHED and the memory port at rest the final change comes at once (R172). -/
theorem restart_of_rest (forfeit : s.mgmt.forfeit = false) (reply : s.mgmt.reply = none)
    (away : (s.restartSilent rq).away) (rest : s.memoryAtRest) :
    restart rq s = (s.restartSilent rq).restartEnded.replied rq.lane rq.tag 0x0E .done 0 [] := by
  have mgmt := restartSilent_mgmt rq s
  have rest := restartSilent_atRest (rq := rq).2 rest
  rw [restart_carried]
  generalize s.restartSilent rq = u at *
  obtain ⟨_, replied, _⟩ := carried_cases (congrArg Mgmt.op mgmt) away rest
  exact replied ((congrArg Mgmt.forfeit mgmt).trans forfeit) ((congrArg Mgmt.reply mgmt).trans reply)

/-- What the stage MEMORY leaves, in the words of the statements. -/
theorem restart_fields_of_working (away : (s.restartSilent rq).away) (busy : ¬s.memoryAtRest) :
    (restart rq s).mgmt = { s.mgmt with op := some ⟨.restart, rq.lane, rq.tag, false⟩, stage := .memory }
      ∧ (restart rq s).port = s.port ∧ (restart rq s).classes = s.classes
      ∧ (restart rq s).xlat.cache = s.xlat.cache := by
  have mgmt := restartSilent_mgmt rq s
  obtain ⟨port, classes, cache⟩ := restartSilent_same rq s
  rw [restart_of_working away busy]
  generalize s.restartSilent rq = u at *
  exact ⟨congrArg (fun m : Mgmt => { m with stage := .memory }) mgmt, port, classes, cache⟩

/-- What the final change leaves, in the words of the statements. -/
theorem restart_fields_of_rest (forfeit : s.mgmt.forfeit = false) (reply : s.mgmt.reply = none)
    (away : (s.restartSilent rq).away) (rest : s.memoryAtRest) :
    (restart rq s).mgmt =
        { s.mgmt with
          restarts := s.mgmt.restarts + 1, stage := .none, op := none
          reply := some ⟨rq.lane, rq.tag, (s.lane rq.lane).number, 0x0E, .done, 0, []⟩ }
      ∧ (restart rq s).port = s.restartEnded.port ∧ (restart rq s).classes = s.restartEnded.classes
      ∧ (restart rq s).xlat.cache = [] ∧ ∀ w, (restart rq s).walk w = none := by
  have mgmt := restartSilent_mgmt rq s
  obtain ⟨port, classes, _⟩ := restartSilent_same rq s
  have number : ((s.restartSilent rq).lane rq.lane).number = (s.lane rq.lane).number := by
    rw [← restart_lane]
    exact (restart_inner rq s).number rq.lane
  rw [restart_of_rest forfeit reply away rest]
  generalize s.restartSilent rq = u at *
  refine ⟨?_, ?_, ?_, rfl, fun w => ?_⟩
  · rw [← number]
    exact congrArg (fun m : Mgmt => { m with
      restarts := m.restarts + 1, stage := .none, op := none
      reply := some ⟨rq.lane, rq.tag, (u.lane rq.lane).number, 0x0E, .done, 0, []⟩ }) mgmt
  · exact congrArg (fun p : MemoryPort => { p with ids := Vector.replicate 16 .free, run := none }) port
  · exact congrArg (fun cs => ({ s with classes := cs } : State).restartEnded.classes) classes
  · show (Vector.replicate 2 (none : Option Walk))[w] = none
    simp

/-- With every lane DETACHED before, none is silenced. -/
theorem restartSilent_of_away (away : s.away) : s.restartSilent rq = (s.restartBegun rq).staged .none := by
  have stays : ∀ l (t : State), t.away → silenceNew l t = t := fun l t away => if_pos (by rw [away l]; rfl)
  have each : ∀ (ls : List Lane) (t : State), t.away → forEach ls silenceNew t = t := by
    intro ls
    induction ls with
    | nil => exact fun _ _ => rfl
    | cons l ls ih =>
      intro t away
      rw [forEach_cons, stays l t away]
      exact ih t away
  have begun : ((s.restartBegun rq).staged .none).away := fun l => away l
  unfold State.restartSilent State.allSilent
  exact each allLanes _ begun

theorem restartSilent_lifted (away : s.away) : (s.restartSilent rq).away := by
  rw [restartSilent_of_away away]
  exact fun l => away l

/-- RESTART with every lane DETACHED before it, the memory port at work. -/
theorem restart_of_away_working (away : s.away) (busy : ¬s.memoryAtRest) :
    restart rq s =
      { s with
        faults := s.faults.discardNotices (if s.noticeStarted then 1 else 0)
        mgmt := { s.mgmt with op := some ⟨.restart, rq.lane, rq.tag, false⟩, stage := .memory } } := by
  rw [restart_of_working (restartSilent_lifted away) busy, restartSilent_of_away away]
  rfl

/-- RESTART with every lane DETACHED before it, the memory port at rest. -/
theorem restart_of_away_rest (forfeit : s.mgmt.forfeit = false) (reply : s.mgmt.reply = none) (away : s.away)
    (rest : s.memoryAtRest) :
    restart rq s =
      ({ s with faults := s.faults.discardNotices (if s.noticeStarted then 1 else 0) } : State).restartEnded.replied
        rq.lane rq.tag 0x0E .done 0 [] := by
  rw [restart_of_rest forfeit reply (restartSilent_lifted away) rest, restartSilent_of_away away]
  rfl

end

end Sys2Proof.Machine

open Sys2Proof Sys2Proof.Machine in
/-- Settles O32: RESTART is the test of R171 on the lanes silenced outside RESTARTING. -/
theorem restartBegins : Obligations.RestartBegins := by
  intro lane tag s m op sending faults ready _ tags
  have ran : exec (.restart lane tag) s = .next (restart ⟨m, tag, 0x0E⟩ s.taken) :=
    congrArg Host.Outcome.next (takeMgmt_ready (rq := ⟨m, tag, 0x0E⟩) ready)
  have resting : s.taken.memoryAtRest ↔ s.memoryAtRest := Iff.rfl
  have inner := restart_inner ⟨m, tag, 0x0E⟩ s.taken
  have still := fun l => restart_lane_of_silent (rq := ⟨m, tag, 0x0E⟩) (s := s.taken) (l := l)
  have goes := fun l joined drain => restart_lane_of_open (rq := ⟨m, tag, 0x0E⟩) (s := s.taken) (l := l) joined drain (tags l)
  have lanes := fun l q mem joined stays => restart_of_joined (rq := ⟨m, tag, 0x0E⟩)
    (restart_joined (s := s.taken) (l := l) (q := q) mem joined stays (tags l))
  have detached := restart_detached (rq := ⟨m, tag, 0x0E⟩) (s := s.taken) tags
  have working := fun none_ => restart_fields_of_working (restartSilent_away (restart_detached (rq := ⟨m, tag, 0x0E⟩) (s := s.taken) tags none_))
  have final := fun none_ => restart_fields_of_rest (s := s.taken) rfl ready.slot
    (restartSilent_away (restart_detached (rq := ⟨m, tag, 0x0E⟩) (s := s.taken) tags none_))
  have awayWorking := restart_of_away_working (rq := ⟨m, tag, 0x0E⟩) (s := s.taken)
  have awayRest := restart_of_away_rest (rq := ⟨m, tag, 0x0E⟩) (s := s.taken) rfl ready.slot
  generalize restart ⟨m, tag, 0x0E⟩ s.taken = t at *
  refine ⟨t, ran, inner.faults, inner.link, inner.agents, inner.windows, inner.portRow, inner.claim.trans ready.claimed,
    inner.manager.trans ready.manager, inner.locked, still, fun l joined drain => ?_,
    fun ⟨l, q, mem, joined, stays⟩ => lanes l q mem joined stays, fun none_ => ⟨detached none_,
      fun busy => working none_ (resting.not.2 busy), fun rest => ?_⟩, fun away busy => awayWorking away (resting.not.2 busy),
    fun away rest => awayRest away (resting.2 rest)⟩
  · obtain ⟨left, area⟩ := goes l joined drain
    exact ⟨left.opened, left.closed, left.slots, left.number, left.issued, left.stream, area⟩
  · obtain ⟨mgmt, fields⟩ := final none_ (resting.2 rest)
    refine ⟨mgmt.trans ?_, fields⟩
    have idle := ready.noOp
    have stage := ready.stage
    simp [State.taken, State.lane, idle, stage]
end

section
/-! Link loss (R174): the cut-off slot, the emptied sources, and the lanes that go SILENT with nothing in their streams. -/

namespace Sys2Proof.Machine

/-! ### The slot whose answer is cut off (R38) -/

/-- The answer of this slot is the parcel in transmission. -/
def State.cutOff (s : State) (l : Lane) (tag : Tag) : Bool :=
  s.link.tx.any (fun x => x.source == .stream l) && (s.lane l).stream.head? == some (StreamItem.answer tag)

/-- One slot's answer is cut off and the slot is freed, or none is. -/
theorem freeCutOff_cases (s : State) :
    (∃ l tag, freeCutOff s = freeSlot l tag s ∧ ∀ k other, s.cutOff k other = true ↔ k = l ∧ other = tag)
      ∨ (freeCutOff s = s ∧ ∀ k other, s.cutOff k other = false) := by
  cases tx : s.link.tx with
  | none => exact .inr ⟨by simp [freeCutOff, tx], fun k other => by simp [State.cutOff, tx]⟩
  | some x =>
    by_cases cut : ∃ l tag, x.source = .stream l ∧ (s.lane l).stream.head? = some (.answer tag)
    · obtain ⟨l, tag, source, head⟩ := cut
      refine .inl ⟨l, tag, by simp [freeCutOff, tx, source, head], fun k other => ?_⟩
      simp only [State.cutOff, tx, source, Option.any_some, Bool.and_eq_true, beq_iff_eq, TxSource.stream.injEq]
      constructor
      · rintro ⟨rfl, h⟩
        rw [head] at h
        cases h
        exact ⟨rfl, rfl⟩
      · rintro ⟨rfl, rfl⟩
        exact ⟨rfl, head⟩
    · refine .inr ⟨?_, fun k other => ?_⟩
      · unfold freeCutOff
        rw [tx]
        dsimp only
        split
        · rename_i l source
          split
          · rename_i tag head
            exact absurd ⟨l, tag, source, head⟩ cut
          all_goals rfl
        all_goals rfl
      · by_contra h
        rw [Bool.not_eq_false, State.cutOff, tx, Option.any_some, Bool.and_eq_true, beq_iff_eq, beq_iff_eq] at h
        exact cut ⟨k, other, h⟩

/-- A slot freed that is not there is nothing. -/
theorem freeSlot_of_missing {l : Lane} {tag : Tag} {s : State} (missing : s.slot? l tag = none) :
    ∀ q ∈ (s.lane l).slots, q.tag ≠ tag := fun q hq e => by
  have := List.find?_eq_none.1 missing q hq
  simp [e] at this

theorem releaseUnits_of_missing {l : Lane} {tag : Tag} {s : State} (missing : s.slot? l tag = none)
    (gone : HeldUnit → Bool) : releaseUnits l tag gone s = s := by
  unfold releaseUnits
  rw [missing]

theorem freeSlot_apart (l : Lane) (tag : Tag) (s : State) : Apart l s (freeSlot l tag s) := by
  have gives : ∃ gone, GivesUp l gone s (freeSlot l tag s) := by
    cases found : s.slot? l tag with
    | none =>
      unfold freeSlot
      rw [releaseUnits_of_missing found]
      exact ⟨[], .updLane s l _⟩
    | some q => exact ⟨[q], .freeSlot found⟩
  obtain ⟨gone, gives⟩ := gives
  refine ⟨gives.others, gives.areas, fun empty => ?_, gives.agents, gives.link, fun _ _ => gives.mgmt⟩
  have missing : s.slot? l tag = none := by
    unfold State.slot? LaneState.slot?
    rw [empty]
    rfl
  unfold freeSlot
  rw [releaseUnits_of_missing missing, updLane_lane_self]
  refine ⟨?_, fun _ => rfl⟩
  show (s.lane l).slots.filter _ = []
  rw [empty]
  rfl

/-- The slots that have this tag, where each has its own. -/
theorem filter_tag_of_found {tag : Tag} {q : Slot} : ∀ {slots : List Slot}, (slots.map (·.tag)).Nodup →
    slots.find? (fun p => p.tag == tag) = some q → slots.filter (fun p => p.tag == tag) = [q]
  | [], _, found => by cases found
  | p :: ps, tags, found => by
    rw [List.map_cons, List.nodup_cons] at tags
    rw [List.find?_cons] at found
    rw [List.filter_cons]
    cases e : p.tag == tag with
    | true =>
      rw [e] at found
      cases found
      have rest : ps.filter (fun p => p.tag == tag) = [] := List.filter_eq_nil_iff.2 fun x hx same => tags.1 (by
        rw [beq_iff_eq] at e same
        exact List.mem_map.2 ⟨x, hx, same.trans e.symm⟩)
      rw [rest, if_pos rfl]
    | false =>
      rw [e] at found
      rw [if_neg Bool.false_ne_true]
      exact filter_tag_of_found tags.2 found

/-- What the cut-off answer leaves of a lane: its slot is gone, with its units (R38). -/
structure CutFrom (l : Lane) (s t : State) : Prop where
  slots : (t.lane l).slots = (s.lane l).slots.filter fun q => !s.cutOff l q.tag
  issued : (t.lane l).issued = (s.lane l).issued
  session : (t.lane l).session = (s.lane l).session
  agents : t.agents = s.agents
  area : (s.lane l).tags.Nodup → s.aloneInArea l → t.aloneInArea l
    ∧ t.area (s.agent l).area = (s.area (s.agent l).area).without ((s.lane l).slots.filter fun q => s.cutOff l q.tag)

theorem CutFrom.of_uncut {l : Lane} {s t : State} (same : Unturned l s t) (uncut : ∀ tag, s.cutOff l tag = false) :
    CutFrom l s t := by
  have none_ : (s.lane l).slots.filter (fun q => s.cutOff l q.tag) = [] := by simp [uncut]
  refine ⟨by rw [same.lane]; simp [uncut], by rw [same.lane], by rw [same.lane], same.agents, fun _ alone => ?_⟩
  rw [none_]
  exact same.alone alone

theorem freeCutOff_cut (l : Lane) (s : State) : CutFrom l s (freeCutOff s) := by
  rcases freeCutOff_cases s with ⟨k, tag, freed, cut⟩ | ⟨same, uncut⟩
  · rw [freed]
    by_cases e : l = k
    · subst e
      obtain ⟨c, w, record⟩ := freeSlot_lane l tag s
      have test : ∀ q : Slot, s.cutOff l q.tag = (q.tag == tag) := fun q => by
        rw [Bool.eq_iff_iff, cut, beq_iff_eq, and_iff_right rfl]
      have apart := freeSlot_apart l tag s
      refine ⟨?_, by rw [record]; rfl, by rw [record]; rfl, apart.agents, fun tags alone => ⟨apart.alone alone, ?_⟩⟩
      · rw [record]
        simp only [test]
        rfl
      · simp only [test]
        cases found : s.slot? l tag with
        | none =>
          have none_ : (s.lane l).slots.filter (fun q => q.tag == tag) = [] := List.filter_eq_nil_iff.2 fun q hq same =>
            freeSlot_of_missing found q hq (by simpa using same)
          rw [none_]
          unfold freeSlot
          rw [releaseUnits_of_missing found]
          rfl
        | some q =>
          rw [filter_tag_of_found tags found]
          exact (GivesUp.freeSlot found).area
    · refine .of_uncut ((freeSlot_apart k tag s).unturned e) fun other => ?_
      by_contra h
      exact e ((cut l other).1 (by simpa using h)).1
  · rw [same]
    exact .of_uncut (.refl l s) (uncut l)

/-! ### A lane that goes SILENT, whatever its tags -/

/-- A slot discarded changes the list and the count of an idle lane alone. -/
theorem discardSlot_idle {l : Lane} {s : State} (tag : Tag) (idle : (s.lane l).session ≠ .active) :
    ∃ slots n, (discardSlot l tag s).lane l = { s.lane l with slots := slots, issued := n } := by
  cases found : s.slot? l tag with
  | none =>
    have same : discardSlot l tag s = s := by
      unfold discardSlot
      rw [found]
    rw [same]
    exact ⟨_, _, rfl⟩
  | some q => exact ⟨_, _, discardSlot_record found (.inl idle)⟩

theorem discardEach_idle {l : Lane} : ∀ (tags : List Tag) {s : State}, (s.lane l).session ≠ .active →
    ∃ slots n, (forEach tags (discardSlot l) s).lane l = { s.lane l with slots := slots, issued := n }
  | [], _, _ => ⟨_, _, rfl⟩
  | tag :: tags, s, idle => by
    obtain ⟨slots, n, first⟩ := discardSlot_idle tag idle
    obtain ⟨slots', n', rest⟩ := discardEach_idle tags (s := discardSlot l tag s) (by rw [first]; exact idle)
    rw [first] at rest
    exact ⟨slots', n', rest⟩

theorem silencedLane_idle (l : Lane) (s : State) :
    ∃ slots n, (s.silencedLane l).lane l
      = { (s.lane l).silenced (s.streamStarted l) with slots := slots, issued := n } := by
  have lane := updLane_lane_self s l (LaneState.silenced (s.streamStarted l))
  obtain ⟨slots, n, record⟩ := discardEach_idle
    ((s.updLane l (LaneState.silenced (s.streamStarted l))).lane l).silentTags
    (s := s.updLane l (LaneState.silenced (s.streamStarted l))) (by rw [lane]; exact fun e => by cases e)
  refine ⟨slots, n, record.trans ?_⟩
  rw [lane]

/-- A lane whose sources are empty. -/
structure LaneState.Emptied (r : LaneState) : Prop where
  stream : r.stream = []
  credit : r.creditWaiting = none

/-- A lane with its sources empty goes SILENT, or DETACHED at once, and they stay empty. -/
theorem silence_emptied {l : Lane} {s : State} (empty : (s.lane l).Emptied) :
    ((silence l s).lane l).Emptied
      ∧ (((silence l s).lane l).session = .draining ∧ ((silence l s).lane l).drain = .silent
        ∨ ((silence l s).lane l).session = .detached) := by
  obtain ⟨slots, n, record⟩ := silencedLane_idle l s
  have nothing : keptStream (s.streamStarted l) (s.lane l).stream = [] := by
    rw [empty.stream]
    cases s.streamStarted l <;> rfl
  rw [silence_eq]
  by_cases closes : ((s.silencedLane l).lane l).slots = []
  · rw [closeDrain_of_empty (by rw [record]; rfl) closes, enterDetached_lane_self, record, detach_of_silent rfl]
    exact ⟨⟨nothing, rfl⟩, .inr rfl⟩
  · rw [closeDrain_of_open (.inr closes), record]
    exact ⟨⟨nothing, empty.credit⟩, .inl ⟨rfl, rfl⟩⟩

/-- Of a lane's slots the ISSUED and the SENDING stay, and it is DETACHED when there is none (R18, R40). -/
theorem silence_slots {l : Lane} {s : State} (tags : (s.lane l).tags.Nodup) :
    ((silence l s).lane l).slots = (s.lane l).slots.filter Slot.survives
      ∧ ((silence l s).lane l).issued = (s.lane l).issued
      ∧ (((silence l s).lane l).session = .detached ↔ ((silence l s).lane l).slots = [])
      ∧ (silence l s).area (s.agent l).area = (s.area (s.agent l).area).without (s.lane l).silentGone := by
  obtain ⟨gives, record⟩ := silencedLane_effect tags
  have area : (silence l s).area (s.agent l).area = (s.area (s.agent l).area).without (s.lane l).silentGone := by
    rw [← gives.area, silence_eq]
    simp only [State.area, closeDrain_areas]
  by_cases closes : (s.lane l).slots.filter Slot.survives = []
  · have lane : (silence l s).lane l = ((s.silencedLane l).lane l).detach := by
      rw [silence_eq, closeDrain_of_empty (by rw [record]; rfl) (by rw [record]; exact closes), enterDetached_lane_self]
    rw [lane, record]
    exact ⟨rfl, rfl, ⟨fun _ => closes, fun _ => rfl⟩, area⟩
  · have lane : (silence l s).lane l = (s.silencedLane l).lane l := by
      rw [silence_eq, closeDrain_of_open (.inr (by rw [record]; exact closes))]
    rw [lane, record]
    exact ⟨rfl, rfl, ⟨(fun detached => by cases detached), fun none_ => absurd none_ closes⟩, area⟩

end Sys2Proof.Machine
end

section
/-! The obligation about link loss (O5). -/

namespace Sys2Proof.Machine

/-- Link loss before the lanes go SILENT: the cut-off slot freed, the sources emptied, LINK_LOST taken. -/
def State.cutLoose (s : State) : State := report { cause := .linkLost } (emptySources (freeCutOff s))

theorem linkLoss_eq (s : State) : linkLoss s = settleOp (forEach allLanes silenceJoined s.cutLoose) := rfl

section

variable (s : State)

theorem cutLoose_lane (l : Lane) : s.cutLoose.lane l = ((freeCutOff s).lane l).emptySources := by
  have noLane : (emptySources (freeCutOff s)).faults.suspends { cause := .linkLost } = none := by
    unfold FaultUnit.suspends
    split <;> rfl
  have lanes := report_lanes_of_no_action noLane
  rw [← emptySources_lane]
  simp only [State.lane, State.cutLoose, lanes]

theorem freeCutOff_mgmt : (freeCutOff s).mgmt = s.mgmt := by
  rcases freeCutOff_cases s with ⟨l, tag, freed, _⟩ | ⟨same, _⟩
  · rw [freed]
    exact (SteadyBut.freeSlot l tag s).mgmt
  · rw [same]

theorem cutLoose_mgmt : s.cutLoose.mgmt = { s.mgmt with reply := none, forfeit := s.mgmt.forfeit || s.mgmt.op.isSome } := by
  obtain ⟨_, _, _, mgmt, _⟩ := report_fields { cause := .linkLost } (emptySources (freeCutOff s))
  refine mgmt.trans ?_
  rw [← freeCutOff_mgmt s]
  rfl

theorem cutLoose_emptied (l : Lane) : (s.cutLoose.lane l).Emptied := by
  rw [cutLoose_lane]
  exact ⟨rfl, rfl⟩

/-- The lane without the slot whose answer was cut off. -/
theorem cutLoose_cut (l : Lane) : CutFrom l s s.cutLoose := by
  obtain ⟨slots, issued, session, agents, area⟩ := freeCutOff_cut l s
  obtain ⟨_, _, _, _, agents', _, _, _, areas', _⟩ := report_fields { cause := .linkLost } (emptySources (freeCutOff s))
  refine ⟨by rw [cutLoose_lane]; exact slots, by rw [cutLoose_lane]; exact issued, by rw [cutLoose_lane]; exact session,
    agents'.trans agents, fun tags alone => ?_⟩
  obtain ⟨alone', area⟩ := area tags alone
  refine ⟨fun k hk => ?_, ?_⟩
  · rw [cutLoose_lane]
    have agent : ∀ j, s.cutLoose.agent j = (freeCutOff s).agent j := fun j => by
      simp only [State.agent, State.cutLoose, agents']
      rfl
    rw [agent, agent]
    exact alone' k hk
  · rw [← area]
    simp only [State.area, State.cutLoose, areas']
    rfl

/-- What link loss leaves of the tables, the link, the role and the fault unit. -/
theorem cutLoose_inner : Inner s.cutLoose (linkLoss s) :=
  (forEach_inner silenceJoined silenceJoined_inner allLanes s.cutLoose).trans (settleOp_inner _)

end

/-! ### Units given up in two steps -/

theorem unitsHeld_perm {xs ys : List Slot} (h : xs.Perm ys) (dir : Dir) (c : HeldUnit → Bool) :
    unitsHeld dir c xs = unitsHeld dir c ys := ((h.filter _).map _).sum_eq

theorem without_perm {xs ys : List Slot} (h : xs.Perm ys) (a : Area) : a.without xs = a.without ys := by
  simp only [Area.without, unitsHeld_perm h]

/-- The slots of one kind given up, then of the others those that do not stay. -/
theorem without_twice (a : Area) (slots : List Slot) (cut stays : Slot → Bool) :
    (a.without (slots.filter cut)).without ((slots.filter fun q => !cut q).filter fun q => !stays q)
      = a.without (slots.filter fun q => !(stays q && !cut q)) := by
  rw [← area_without_append]
  refine without_perm ?_ a
  have split := List.filter_append_perm cut (slots.filter fun q => !(stays q && !cut q))
  rw [List.filter_filter, List.filter_filter] at split
  rw [List.filter_filter]
  have gone : (fun q => cut q && !(stays q && !cut q)) = cut := by
    funext q
    cases cut q <;> simp
  have left : (fun q => !cut q && !(stays q && !cut q)) = fun q => !stays q && !cut q := by
    funext q
    cases cut q <;> simp
  rwa [gone, left] at split

theorem settleOp_areas (s : State) : (settleOp s).areas = s.areas := by
  unfold settleOp
  repeat' split
  all_goals rfl

/-! ### The lanes after link loss -/

section

variable {s : State} {l : Lane}

theorem linkLoss_lane (s : State) (l : Lane) : (linkLoss s).lane l = (forEach allLanes silenceJoined s.cutLoose).lane l :=
  settleOp_lane _ l

theorem linkLoss_lane_of_away (away : (s.lane l).session = .detached) : (linkLoss s).lane l = s.cutLoose.lane l := by
  obtain ⟨u, before, after⟩ := forEach_turn silenceJoined_apart l s.cutLoose
  have stays : silenceJoined l u = u := if_pos (by rw [before.lane, (cutLoose_cut s l).session, away]; rfl)
  rw [stays] at after
  rw [linkLoss_lane]
  exact after.lane.trans before.lane

/-- A joined lane has its turn. -/
theorem linkLoss_turn (joined : (s.lane l).session ≠ .detached) :
    ∃ u, Unturned l s.cutLoose u ∧ Unturned l (silence l u) (forEach allLanes silenceJoined s.cutLoose) := by
  obtain ⟨u, before, after⟩ := forEach_turn silenceJoined_apart l s.cutLoose
  have goes : silenceJoined l u = silence l u := if_neg (by rw [before.lane, (cutLoose_cut s l).session]; simpa using joined)
  rw [goes] at after
  exact ⟨u, before, after⟩

theorem linkLoss_joined (joined : (s.lane l).session ≠ .detached) :
    ((linkLoss s).lane l).Emptied
      ∧ (((linkLoss s).lane l).session = .draining ∧ ((linkLoss s).lane l).drain = .silent
        ∨ ((linkLoss s).lane l).session = .detached) := by
  obtain ⟨u, before, after⟩ := linkLoss_turn joined
  rw [linkLoss_lane, after.lane]
  refine silence_emptied ?_
  rw [before.lane]
  exact cutLoose_emptied s l

theorem linkLoss_emptied (s : State) (l : Lane) : ((linkLoss s).lane l).Emptied := by
  by_cases away : (s.lane l).session = .detached
  · rw [linkLoss_lane_of_away away]
    exact cutLoose_emptied s l
  · exact (linkLoss_joined away).1

/-- Of a joined lane's slots the ISSUED and the SENDING stay, but for the one whose answer is cut off (R38, R40). -/
theorem linkLoss_slots (joined : (s.lane l).session ≠ .detached) (tags : (s.lane l).tags.Nodup) :
    ((linkLoss s).lane l).slots = (s.lane l).slots.filter (fun q => q.survives && !s.cutOff l q.tag)
      ∧ ((linkLoss s).lane l).issued = (s.lane l).issued
      ∧ (((linkLoss s).lane l).session = .detached ↔ ((linkLoss s).lane l).slots = [])
      ∧ (s.aloneInArea l → (linkLoss s).area (s.agent l).area = (s.area (s.agent l).area).without
          ((s.lane l).slots.filter fun q => !(q.survives && !s.cutOff l q.tag))) := by
  obtain ⟨u, before, after⟩ := linkLoss_turn joined
  have cut := cutLoose_cut s l
  have left : (u.lane l).slots = (s.lane l).slots.filter fun q => !s.cutOff l q.tag := by rw [before.lane, cut.slots]
  have tags' : (u.lane l).tags.Nodup := by
    unfold LaneState.tags
    rw [left]
    exact filter_tags_nodup tags _
  obtain ⟨slots, issued, closed, area⟩ := silence_slots tags'
  rw [linkLoss_lane, after.lane]
  refine ⟨?_, by rw [issued, before.lane, cut.issued], closed, fun alone => ?_⟩
  · rw [slots, left, List.filter_filter]
  · obtain ⟨alone₁, area₁⟩ := cut.area tags alone
    obtain ⟨alone₂, area₂⟩ := before.alone alone₁
    have agents : (silence l u).agents = s.agents :=
      (silence_apart l u).agents.trans (before.agents.trans cut.agents)
    have agent : ∀ t : State, t.agents = s.agents → t.agent l = s.agent l := fun t h => by simp only [State.agent, h]
    have area₃ := (after.alone ((silence_apart l u).alone alone₂)).2
    rw [agent _ agents] at area₃
    rw [agent _ (before.agents.trans cut.agents)] at area
    rw [agent _ cut.agents] at area₂
    have settled : (linkLoss s).area (s.agent l).area
        = (forEach allLanes silenceJoined s.cutLoose).area (s.agent l).area := by
      simp only [State.area, linkLoss_eq, settleOp_areas]
    rw [settled, area₃, area, area₂, area₁, LaneState.silentGone, left, without_twice]

end

end Sys2Proof.Machine
end

section
/-! The engine, the link and the tables after link loss, and O5. -/

namespace Sys2Proof.Machine

section

variable (s : State)

/-- What the cut-off and the emptied sources leave of the tables, the link and the fault unit (R151, R174). -/
theorem cutLoose_fields :
    s.cutLoose.link = { s.link with state := .down, tx := none, refusals := [] }
      ∧ s.cutLoose.faults
        = (s.faults.discardNotices 0).take (s.mgmt.claim == .claimed) s.timebase { cause := .linkLost }
      ∧ s.cutLoose.windows = s.windows ∧ s.cutLoose.portRow = s.portRow ∧ (∀ a, (s.cutLoose.area a).row = (s.area a).row)
      ∧ (∀ k, (s.cutLoose.cls k).row = (s.cls k).row) ∧ s.cutLoose.timebase = s.timebase
      ∧ s.cutLoose.pending = s.pending ∧ ∀ l, (s.cutLoose.lane l).number = (s.lane l).number := by
  have inner := freeCutOff_inner s
  have number : ∀ l, (s.cutLoose.lane l).number = (s.lane l).number := fun l => by
    rw [cutLoose_lane]
    exact inner.number l
  obtain ⟨pending, timebase, link, _, _, windows, row, _, areas, _, classes, _⟩ :=
    report_fields { cause := .linkLost } (emptySources (freeCutOff s))
  have faults := report_faults { cause := .linkLost } (emptySources (freeCutOff s))
  refine ⟨link.trans ?_, faults.trans ?_, windows.trans inner.windows, row.trans inner.portRow, fun a => ?_, fun k => ?_,
    timebase.trans inner.timebase, pending.trans inner.pending, number⟩
  · rw [← inner.link]
    rfl
  · rw [← inner.claim, ← inner.faults, ← inner.timebase]
    rfl
  · rw [← inner.areaRow a]
    simp only [State.area, State.cutLoose, areas]
    rfl
  · rw [← inner.classRow k]
    simp only [State.cls, State.cutLoose, classes]
    rfl

theorem linkLoss_link : (linkLoss s).link = { s.link with state := .down, tx := none, refusals := [] } :=
  (cutLoose_inner s).link.trans (cutLoose_fields s).1

end

section

variable {s : State}

/-- While the link is DOWN an operation in progress is forfeit, and the reply slot is empty (R161). -/
theorem linkLoss_down (up : s.link.state = .up) :
    (linkLoss s).mgmt.reply = none ∧ ((linkLoss s).mgmt.op.isSome → (linkLoss s).mgmt.forfeit = true) := by
  have law : DownLaw s := DownLaw.of_up (by simp [State.linkUp, up])
  have down : (linkLoss s).linkUp = false := by simp [State.linkUp, linkLoss_link]
  exact ((Sound.linkLoss s).down law down).2.2

/-- An operation that has ended is discarded with its reply (R161). -/
theorem linkLoss_of_ended {o : Operation} (op : s.mgmt.op = some o) (ended : o.ended = true) (stage : s.mgmt.stage = .none) :
    (linkLoss s).mgmt.op = none := by
  have mgmt := cutLoose_mgmt s
  have free : ∀ l, s.cutLoose.notAwaited l := fun l p hp _ => by
    rw [mgmt, op] at hp
    cases hp
    exact ended
  have engine := forEach_engine silenceJoined_apart (by rw [mgmt]; exact stage) free
  rw [linkLoss_eq]
  generalize forEach allLanes silenceJoined s.cutLoose = z at *
  rw [settleOp_of_forfeit (by rw [engine, mgmt]; exact op) ended (by rw [engine, mgmt, op]; simp)]

/-- A SESSION RESET that is forfeit is discarded when its lane is detached (R16, R161). -/
theorem silence_reset {l m : Lane} {tag : Tag} (stage : s.mgmt.stage = .none)
    (op : s.mgmt.op = some ⟨.sessionReset l, m, tag, false⟩) (forfeit : s.mgmt.forfeit = true) :
    (silence l s).mgmt.stage = .none
      ∧ (silence l s).mgmt.op = if ((silence l s).lane l).session = .detached then none else s.mgmt.op := by
  obtain ⟨slots, n, record⟩ := silencedLane_idle l s
  have mgmt := silencedLane_mgmt l s
  refine ⟨(silence_undisturbed l stage).stage, ?_⟩
  rw [silence_eq]
  generalize s.silencedLane l = t at *
  by_cases closes : (t.lane l).slots = []
  · rw [closeDrain_of_empty (by rw [record]; rfl) closes, enterDetached_lane_self]
    rw [((enterDetached_settled (by rw [mgmt]; exact stage)).2 m tag (by rw [mgmt]; exact op)).1 (by rw [mgmt]; exact forfeit)]
    exact (if_pos rfl).symm
  · rw [closeDrain_of_open (.inr closes), mgmt, record, if_neg fun e => by cases e]

theorem linkLoss_of_reset {l m : Lane} {tag : Tag} (op : s.mgmt.op = some ⟨.sessionReset l, m, tag, false⟩)
    (joined : (s.lane l).session ≠ .detached) (stage : s.mgmt.stage = .none) :
    (linkLoss s).mgmt.op = if ((linkLoss s).lane l).session = .detached then none else s.mgmt.op := by
  obtain ⟨u, before, after⟩ := linkLoss_turn joined
  have mgmt := cutLoose_mgmt s
  have others : ∀ t : State, (t.mgmt.op = none ∨ t.mgmt.op = s.mgmt.op) → ∀ k, k ≠ l → t.notAwaited k := by
    intro t h k hk p hp reset
    rcases h with h | h
    · rw [h] at hp
      cases hp
    · rw [h, op] at hp
      cases hp
      cases reset
      exact absurd rfl hk
  have first := (before.engine (by rw [mgmt]; exact stage) (others _ (.inr (by rw [mgmt])))).trans mgmt
  obtain ⟨stage', left⟩ := silence_reset (l := l) (s := u) (by rw [first]; exact stage) (by rw [first]; exact op)
    (by rw [first, op]; simp)
  have kept : (silence l u).mgmt.op = none ∨ (silence l u).mgmt.op = s.mgmt.op := by
    rw [left, first]
    split
    · exact .inl rfl
    · exact .inr rfl
  have last := after.engine stage' (others _ kept)
  have settled : (linkLoss s).mgmt.op = (silence l u).mgmt.op := by
    rw [linkLoss_eq, ← last]
    rcases kept with none_ | running
    · rw [settleOp_of_none (by rw [last]; exact none_)]
    · rw [settleOp_of_open (by rw [last, running]; exact op) rfl]
  rw [settled, left, first, linkLoss_lane, after.lane]

end

/-- Link loss is what both of its causes come to (R173). -/
theorem exec_linkLoss {c : Instr} {s : State} (up : s.link.state = .up)
    (cause : c = .lossOfSignal ∨ (c = .damagedMarker ∧ 2 ≤ s.link.damaged)) :
    ∃ n, exec c s = .next (linkLoss (s.withLink fun k => { k with damaged := n })) := by
  rcases cause with rfl | ⟨rfl, third⟩
  · refine ⟨s.link.damaged, ?_⟩
    show Host.Outcome.next (lossOfSignal s) = _
    unfold lossOfSignal
    rw [up]
    rfl
  · refine ⟨s.link.damaged + 1, ?_⟩
    have enough : Config.damagedMarkers ≤ s.link.damaged + 1 := by
      show 3 ≤ s.link.damaged + 1
      omega
    show Host.Outcome.next (damagedMarker s) = _
    unfold damagedMarker
    rw [up]
    dsimp only
    rw [if_pos enough]
    rfl

end Sys2Proof.Machine

open Sys2Proof Sys2Proof.Machine in
/-- Settles O5: link loss lane by lane, and the engine, the link and the tables after it. -/
theorem linkLossEmptiesTheSources : Obligations.LinkLossEmptiesTheSources := by
  intro c s up cause stays
  obtain ⟨n, ran⟩ := exec_linkLoss up cause
  have inner := cutLoose_inner (s.withLink fun k => { k with damaged := n })
  have link := linkLoss_link (s.withLink fun k => { k with damaged := n })
  have down := linkLoss_down (s := s.withLink fun k => { k with damaged := n }) up
  have ended := fun o => linkLoss_of_ended (s := s.withLink fun k => { k with damaged := n }) (o := o)
  have reset := fun l m tag => linkLoss_of_reset (s := s.withLink fun k => { k with damaged := n }) (l := l) (m := m) (tag := tag)
  have emptied := linkLoss_emptied (s.withLink fun k => { k with damaged := n })
  have away := fun l => linkLoss_lane_of_away (s := s.withLink fun k => { k with damaged := n }) (l := l)
  have joined := fun l => linkLoss_joined (s := s.withLink fun k => { k with damaged := n }) (l := l)
  have slots := fun l => linkLoss_slots (s := s.withLink fun k => { k with damaged := n }) (l := l)
  have mgmt := cutLoose_mgmt (s.withLink fun k => { k with damaged := n })
  have cut := cutLoose_cut (s := s.withLink fun k => { k with damaged := n })
  obtain ⟨_, faults, windows, row, areaRow, classRow, timebase, pending, number⟩ :=
    cutLoose_fields (s.withLink fun k => { k with damaged := n })
  generalize linkLoss (s.withLink fun k => { k with damaged := n }) = t at *
  refine ⟨t, ran, by rw [link], by rw [link], by rw [link], by rw [link]; rfl, by rw [link]; rfl, down.1, down.2, ended, reset,
    inner.faults.trans faults, fun l => ⟨(emptied l).stream, (emptied l).credit, (inner.number l).trans (number l)⟩,
    fun l h => ?_, fun l h => (joined l h).2, slots, ?_, ?_, ?_, ?_, inner.agents.trans (cut 0).agents,
    inner.windows.trans windows, inner.portRow.trans row, fun a => (inner.areaRow a).trans (areaRow a),
    fun k => (inner.classRow k).trans (classRow k), inner.timebase.trans timebase, inner.pending.trans pending⟩
  · rw [away l h, (cut l).session]
    exact h
  · rw [inner.claim, mgmt]
    rfl
  · rw [inner.manager, mgmt]
    rfl
  · rw [inner.strapped, mgmt]
    rfl
  · rw [inner.locked, mgmt]
    rfl
end
section
/-! The nine checks of R24: what a request that passes them meets (cited by O37, O38, O39 and O55), and the refusal for the first
that fails (O35). -/

namespace Sys2Proof.Machine

/-- The nine checks of R24 all pass. -/
structure State.Passes (s : State) (rq : Request) : Prop where
  stage : s.mgmt.stage = .none
  active : (s.lane rq.lane).session = .active
  number : rq.number = (s.lane rq.lane).number
  length : rq.badLength = false
  fresh : (s.lane rq.lane).slot? rq.tag = none
  room : s.slotsInUse < 64
  credit : rq.overruns (s.lane rq.lane) = false

theorem active_of_others {x : SessionState} (detached : x ≠ .detached) (suspended : x ≠ .suspended)
    (draining : x ≠ .draining) : x = .active := by
  cases x
  · exact absurd rfl detached
  · rfl
  · exact absurd rfl suspended
  · exact absurd rfl draining

/-- A request meets no refusal exactly when all nine checks pass. -/
theorem refusal_eq_none_iff {s : State} {rq : Request} : s.refusal rq = none ↔ s.Passes rq := by
  constructor
  · intro h
    unfold State.refusal at h
    dsimp only at h
    repeat' split at h
    all_goals cases h
    rename_i running joined number notSuspended notDraining length fresh room credit
    exact ⟨by simpa [State.restarting] using running, active_of_others (by simpa using joined)
      (by simpa using notSuspended) (by simpa using notDraining), by simpa using number, by simpa using length,
      by simpa using fresh, by simpa [Config.requestSlots] using room, by simpa using credit⟩
  · rintro ⟨stage, active, number, length, fresh, room, credit⟩
    simp [State.refusal, State.restarting, stage, active, number, length, fresh, credit, Config.requestSlots, room]

theorem slot?_isSome_iff {r : LaneState} {tag : Tag} : (r.slot? tag).isSome = true ↔ ∃ q ∈ r.slots, q.tag = tag := by
  simp [LaneState.slot?, List.find?_isSome]

/-- One check before the others: the case it makes of a table. -/
theorem map_check_eq {α β : Type} {f : α → β} {P : Prop} [Decidable P] {b : Bool} {x : α} {o : Option α} {y : β}
    {cs : List (Bool × β)} (check : P ↔ b = true) (case : f x = y) (rest : o.map f = firstCase cs) :
    (if P then some x else o).map f = firstCase ((b, y) :: cs) := by
  rw [firstCase_cons]
  by_cases h : P
  · rw [if_pos h, if_pos (check.1 h), ← case]
    rfl
  · rw [if_neg h, if_neg fun e => h (check.2 e)]
    exact rest

theorem badLength_iff (rq : Request) : rq.badLength = true ↔
    rq.length = 0 ∨ 256 < rq.length ∨ rq.dir = .write ∧ rq.data.length ≠ rq.length := by
  simp [Request.badLength, or_assoc]

/-- The checks of R24 as a table of cases, with the reports that each raises. -/
theorem refusal_eq_firstCase (s : State) (rq : Request) (write : Bool) (dir : write = true ↔ rq.dir = .write) :
    let r := s.lane rq.lane
    (s.refusal rq).map (fun x => (x.1, x.2.toList)) = firstCase
      [(decide (s.mgmt.stage ≠ .none), (RefusalCode.notReady, [])),
        (decide (r.session = .detached), (.notJoined, [rq.report .refusedRequest])),
        (decide (rq.number ≠ r.number), (.staleSession, [rq.report .refusedRequest])),
        (decide (r.session = .suspended), (.suspended, [rq.report .refusedRequest])),
        (decide (r.session = .draining), (.draining, [rq.report .refusedRequest])),
        (decide (rq.length = 0 ∨ 256 < rq.length ∨ (write = true ∧ rq.data.length ≠ rq.length)),
          (.badRequest, [{ cause := .linkFormat, lane := some rq.lane }])),
        (decide (∃ q ∈ r.slots, q.tag = rq.tag), (.tagInUse, [rq.report .tagInUse])),
        (decide (64 ≤ s.slotsInUse), (.tableFull, [rq.report .tableFull])),
        (write && decide (r.credit < (rq.length + 63) / 64), (.creditOverrun, [rq.report .creditOverrun]))] := by
  intro r
  refine map_check_eq (by simp [State.restarting]) rfl ?_
  refine map_check_eq (by simp [r]) rfl ?_
  refine map_check_eq (by simp [r]) rfl ?_
  refine map_check_eq (by simp [r]) rfl ?_
  refine map_check_eq (by simp [r]) rfl ?_
  refine map_check_eq (by rw [badLength_iff, decide_eq_true_iff, dir]) rfl ?_
  refine map_check_eq (by rw [slot?_isSome_iff, decide_eq_true_iff]) rfl ?_
  refine map_check_eq (by rw [decide_eq_true_iff]; rfl) rfl ?_
  refine map_check_eq ?_ rfl rfl
  rw [Request.overruns, Bool.and_eq_true, Bool.and_eq_true, beq_iff_eq, dir]
  rfl

/-- A request refused: its REFUSAL joins the queue or is lost, and the reports are taken (R25, R177). -/
theorem refuse_eq (rq : Request) (code : RefusalCode) (rep : Option Report) (s : State) :
    refuse rq code rep s = s.requestRefused rq.lane rq.tag rq.address code rep.toList := by
  unfold refuse State.requestRefused State.refusalsFull
  by_cases room : s.link.refusals.length < 16
  · simp [Config.refusalPlaces, room, Nat.not_le.2 room, State.withLink]
  · simp [Config.refusalPlaces, room, Nat.le_of_not_lt room]

/-- A request that meets no pending claim of its lane comes to the checks (R157, R174). -/
theorem requestArrives_eq {rq : Request} {s : State} (up : s.link.state = .up) (claim : s.noClaimOf rq.lane) :
    requestArrives rq s = takeRequest rq s := by
  simp [requestArrives, (linkUp_iff s).2 up, abandonClaim_of_noClaimOf claim]

/-- A request that passes the nine checks is accepted (R24, R26). -/
theorem requestArrives_of_passes {rq : Request} {s : State} (up : s.link.state = .up) (claim : s.noClaimOf rq.lane)
    (passes : s.Passes rq) : requestArrives rq s = accept rq s := by
  rw [requestArrives_eq up claim, takeRequest, refusal_eq_none_iff.2 passes]

/-- A request that fails a check is refused as the table of R24 says. -/
theorem requestArrives_of_refused {rq : Request} {s : State} (up : s.link.state = .up) (claim : s.noClaimOf rq.lane)
    {x : RefusalCode × List Report} (refused : (s.refusal rq).map (fun x => (x.1, x.2.toList)) = some x) :
    requestArrives rq s = s.requestRefused rq.lane rq.tag rq.address x.1 x.2 := by
  obtain ⟨y, hy, rfl⟩ := Option.map_eq_some_iff.1 refused
  rw [requestArrives_eq up claim, takeRequest, hy]
  exact refuse_eq rq y.1 y.2 s

end Sys2Proof.Machine

open Sys2Proof Sys2Proof.Machine in
/-- Settles O35: the checks of R24 are the table of cases, for a READ and for a WRITE. -/
theorem requestIsRefusedByTheFirstCheck : Obligations.RequestIsRefusedByTheFirstCheck := by
  intro lane tag number address length data s l r fault refused up claim
  refine ⟨fun x hx => ?_, fun x hx => ?_⟩
  · have table := refusal_eq_firstCase s ⟨l, tag, number, .read, address, length.toNat, []⟩ false (by simp)
    refine congrArg Host.Outcome.next (requestArrives_of_refused up claim (table.trans ?_))
    simp only [Bool.false_eq_true, false_and, or_false, Bool.false_and, refused] at hx ⊢
    exact hx
  · have table := refusal_eq_firstCase s ⟨l, tag, number, .write, address, length.toNat, data⟩ true (by simp)
    exact congrArg Host.Outcome.next (requestArrives_of_refused up claim (table.trans hx))
end
section
/-! What every step keeps of the capacities and of the staging storage (O55): the log, the notices, the refusals, the cache, the
request table, and the canonical form. -/

namespace Sys2Proof.Machine

/-- The capacities hold again, and the storage is in canonical form again. -/
structure Bounded (s t : State) : Prop where
  log : s.faults.log.length ≤ 8 → t.faults.log.length ≤ 8
  notices : s.faults.notices.length ≤ 4 → t.faults.notices.length ≤ 4
  refusals : s.link.refusals.length ≤ 16 → t.link.refusals.length ≤ 16
  cache : s.xlat.cache.length ≤ 32 → t.xlat.cache.length ≤ 32
  slots : s.slotsInUse ≤ 64 → t.slotsInUse ≤ 64
  staging : StagingCanonical s → StagingCanonical t

/-- A table with no lane's list longer has no more slots in use (R22). -/
theorem slotsInUse_le {s t : State} (h : ∀ l, (t.lane l).slots.length ≤ (s.lane l).slots.length) :
    t.slotsInUse ≤ s.slotsInUse := List.sum_le_sum fun l _ => h l

/-- One list longer by one slot, and no other list longer: one slot more in use (R22). -/
theorem slotsInUse_succ {s t : State} {l : Lane} (own : (t.lane l).slots.length = (s.lane l).slots.length + 1)
    (others : ∀ k, k ≠ l → (t.lane k).slots.length = (s.lane k).slots.length) : t.slotsInUse = s.slotsInUse + 1 := by
  have sum : ∀ u : State, u.slotsInUse = ∑ k : Lane, (u.lane k).slots.length := fun u =>
    (Fin.sum_univ_def fun k => (u.lane k).slots.length).symm
  have step : ∀ k : Lane, (t.lane k).slots.length = (s.lane k).slots.length + if k = l then 1 else 0 := fun k => by
    by_cases e : k = l
    · subst e
      rw [own, if_pos rfl]
    · rw [others k e, if_neg e, Nat.add_zero]
  rw [sum, sum, Finset.sum_congr rfl fun k _ => step k, Finset.sum_add_distrib]
  simp

namespace Bounded

theorem refl (s : State) : Bounded s s := ⟨id, id, id, id, id, id⟩

theorem trans {s t u : State} (a : Bounded s t) (b : Bounded t u) : Bounded s u :=
  ⟨b.log ∘ a.log, b.notices ∘ a.notices, b.refusals ∘ a.refusals, b.cache ∘ a.cache, b.slots ∘ a.slots,
    b.staging ∘ a.staging⟩

theorem forEach {α : Type} {f : α → State → State} (step : ∀ x s, Bounded s (f x s)) (xs : List α) (s : State) :
    Bounded s (forEach xs f s) := forEach_rel Bounded refl (fun _ _ _ => trans) f step xs s

theorem of_kept {s t : State} (h : Kept s t) : Bounded s t where
  log := h.faults.log
  notices := h.faults.notices
  refusals := by
    rw [show t.link = s.link from h.inner.link]
    exact id
  cache := h.inner.cache
  slots := le_trans (slotsInUse_le fun l => by
    have shorter : ((t.lane l).slots.map (·.tag)).length ≤ ((s.lane l).slots.map (·.tag)).length :=
      (h.inner.tags l).length_le
    rwa [List.length_map, List.length_map] at shorter)
  staging := h.inner.staging

theorem of_inner {s t : State} (h : Inner s t) : Bounded s t := of_kept h.kept

/-- A change of the fault unit that keeps its bounds, and of the parts that have none. -/
theorem of_faults {s t : State} (faults : FaultsKept s.faults t.faults) (link : t.link.refusals = s.link.refusals)
    (xlat : t.xlat = s.xlat) (lanes : ∀ l, (t.lane l).slots = (s.lane l).slots) (staging : t.staging = s.staging) :
    Bounded s t := by
  have slots : t.slotsInUse = s.slotsInUse := by simp only [State.slotsInUse, lanes]
  exact ⟨faults.log, faults.notices, by rw [link]; exact id, by rw [xlat]; exact id, by rw [slots]; exact id,
    by unfold StagingCanonical; rw [staging]; exact id⟩

/-- A change of the parts that have no bound. -/
theorem of_same {s t : State} (faults : t.faults = s.faults) (link : t.link.refusals = s.link.refusals)
    (xlat : t.xlat = s.xlat) (lanes : ∀ l, (t.lane l).slots = (s.lane l).slots) (staging : t.staging = s.staging) :
    Bounded s t := of_faults (by rw [faults]; exact FaultsKept.refl _) link xlat lanes staging

theorem engine (s : State) (f : Mgmt → Mgmt) : Bounded s (s.withMgmt f) := of_same rfl rfl rfl (fun _ => rfl) rfl

theorem report (rep : Report) (s : State) : Bounded s (report rep s) := of_kept (report_kept rep s)

theorem reportAll (reps : List Report) (s : State) : Bounded s (reportAll reps s) := of_kept (reportAll_kept reps s)

/-- A change of a lane's record but for its list. -/
theorem updLane {s : State} {l : Lane} {f : LaneState → LaneState} (slots : (f (s.lane l)).slots = (s.lane l).slots) :
    Bounded s (s.updLane l f) := by
  refine of_same rfl rfl rfl (fun k => ?_) rfl
  rw [updLane_lane]
  split
  · rename_i e
    rw [e, slots]
  · rfl

theorem withLink {s : State} {f : LinkPort → LinkPort} (shorter : (f s.link).refusals.length ≤ s.link.refusals.length) :
    Bounded s (s.withLink f) :=
  { refl s with refusals := le_trans shorter }

theorem withFaults {s : State} {f : FaultUnit → FaultUnit} (kept : FaultsKept s.faults (f s.faults)) :
    Bounded s (s.withFaults f) := of_faults kept rfl rfl (fun _ => rfl) rfl

theorem abandonClaim (l : Lane) (s : State) : Bounded s (abandonClaim l s) := by
  unfold Machine.abandonClaim
  split
  · exact engine s _
  · exact refl s

/-! ### Parcels of requests and sessions -/

/-- A request that passed check 8 of R24 takes one of at most 64 slots. -/
theorem enlist {rq : Request} {s : State} (room : s.slotsInUse < 64) (d : Decoded) : Bounded s (enlist rq d s) := by
  obtain ⟨q, _, n, own⟩ := enlist_lane rq d s
  have one : (Machine.enlist rq d s).slotsInUse = s.slotsInUse + 1 :=
    slotsInUse_succ (by rw [own]; exact List.length_append) fun k hk => by rw [enlist_lane_ne rq d s hk]
  have staging : StagingCanonical s → StagingCanonical (Machine.enlist rq d s) := by
    intro h
    unfold Machine.enlist
    dsimp only
    split
    · exact h
    · exact Memory.put_wf h _ _ _
  obtain ⟨_, _, link, _⟩ := enlist_frame rq d s
  have faults : (Machine.enlist rq d s).faults = s.faults := by
    unfold Machine.enlist
    dsimp only
    split <;> rfl
  exact ⟨by rw [faults]; exact id, by rw [faults]; exact id, by rw [link]; exact id, by rw [IndexKept.enlist_xlat]; exact id,
    fun _ => by omega, staging⟩

theorem accept {rq : Request} {s : State} (passes : s.Passes rq) : Bounded s (accept rq s) := by
  refine (enlist (rq := rq) passes.room (s.decode rq)).trans ?_
  unfold Machine.accept
  dsimp only
  split
  · exact (of_inner (completeSlot_inner _ _ _ _)).trans (report _ _)
  · exact of_inner (completeSlot_inner _ _ _ _)
  · exact refl _
  · exact of_kept (translateSlot_kept _ _ _)

/-- A REFUSAL joins the queue while it has fewer than 16 places taken (R177). -/
theorem refused (s : State) (l : Lane) (tag : Tag) (address : BitVec 32) (code : RefusalCode) (reps : List Report) :
    Bounded s (s.requestRefused l tag address code reps) := by
  unfold State.requestRefused
  split
  · rename_i room
    refine trans ?_ (reportAll _ _)
    refine { refl s with refusals := fun _ => ?_ }
    show (_ ++ [_] : List RefusalItem).length ≤ 16
    rw [List.length_append, List.length_singleton]
    exact room
  · exact reportAll _ s

theorem requestArrives (rq : Request) (s : State) : Bounded s (requestArrives rq s) := by
  unfold Machine.requestArrives
  split
  · exact refl s
  · refine (abandonClaim rq.lane s).trans ?_
    unfold takeRequest
    split
    · rw [refuse_eq]
      exact refused _ _ _ _ _ _
    · exact accept (refusal_eq_none_iff.1 ‹_›)

theorem handItem (l : Lane) (x : StreamItem) (s : State) : Bounded s (handItem l x s) := of_inner (handItem_inner l x s)

theorem sessionParcel (l : Lane) {act : State → State} (run : ∀ s, Bounded s (act s)) (s : State) :
    Bounded s (sessionParcel l act s) := by
  rcases sessionParcel_cases l act s with e | e | e <;> rw [e]
  · exact refl s
  · exact (abandonClaim l s).trans (report _ _)
  · exact (abandonClaim l s).trans (run _)

theorem takeJoin (l : Lane) (tag : Tag) (identifier : BitVec 64) (s : State) : Bounded s (takeJoin l tag identifier s) := by
  rcases takeJoin_cases l tag identifier s with ⟨x, _, e⟩ | ⟨_, _, e⟩ | ⟨x, rep, _, e⟩ <;> rw [e]
  · exact handItem l x s
  · exact (updLane rfl).trans (of_inner (grantRule_inner l _))
  · exact (handItem l x s).trans (report rep _)

theorem takeLeave (l : Lane) (tag : Tag) (number : BitVec 8) (s : State) : Bounded s (takeLeave l tag number s) := by
  unfold Machine.takeLeave
  dsimp only
  repeat' split
  · exact handItem l _ s
  · exact handItem l _ s
  · exact handItem l _ s
  · exact handItem l _ s
  · exact of_inner (openAnswered_inner l tag s)

/-! ### The link -/

theorem linkLoss (s : State) : Bounded s (linkLoss s) := by
  have emptied : Bounded (freeCutOff s) (emptySources (freeCutOff s)) :=
    { of_faults (s := freeCutOff s) (t := { emptySources (freeCutOff s) with link := (freeCutOff s).link })
        (discardNotices_kept _ _) rfl rfl (fun l => by
        show ((emptySources (freeCutOff s)).lane l).slots = _
        rw [emptySources_lane]
        rfl) rfl with
      refusals := fun _ => Nat.zero_le _ }
  exact (((of_inner (freeCutOff_inner s)).trans emptied).trans (report _ _)).trans
    ((of_inner (forEach_inner _ silenceJoined_inner allLanes _)).trans (of_inner (settleOp_inner _)))

theorem signalPresent (s : State) : Bounded s (s.withLink signalPresent) := by
  refine withLink (le_of_eq ?_)
  unfold Machine.signalPresent
  split <;> rfl

theorem goodMarker (s : State) : Bounded s (s.withLink goodMarker) := by
  refine withLink (le_of_eq ?_)
  unfold Machine.goodMarker
  repeat' split
  all_goals rfl

theorem damagedMarker (s : State) : Bounded s (damagedMarker s) := by
  unfold Machine.damagedMarker
  split
  · exact refl s
  · exact withLink le_rfl
  · split
    · exact (withLink le_rfl).trans (linkLoss _)
    · exact withLink le_rfl

theorem lossOfSignal (s : State) : Bounded s (lossOfSignal s) := by
  unfold Machine.lossOfSignal
  split
  · exact refl s
  · exact withLink le_rfl
  · exact linkLoss s

theorem dropFrame (f : Frame) (s : State) : Bounded s (dropFrame f s) := by
  unfold Machine.dropFrame
  split
  · exact report _ s
  · exact report _ s
  · exact refl s

/-! ### Transmission and time -/

theorem startItem (l : Lane) (x : StreamItem) (s : State) : Bounded s (startItem l x s) := by
  unfold Machine.startItem
  split
  · split
    · exact (of_inner (updSlot_inner s l _ _ (by intro _; rfl))).trans (of_same rfl rfl rfl (fun _ => rfl) rfl)
    · exact refl s
  all_goals exact withLink le_rfl

theorem startBelow (s : State) : Bounded s (startBelow s) := by
  unfold Machine.startBelow startStream startCredit
  repeat' split
  · exact withLink le_rfl
  · exact (updLane rfl).trans (of_same rfl rfl rfl (fun _ => rfl) rfl)
  · exact (withLink le_rfl).trans (startItem _ _ _)
  · exact refl s
  · exact refl s

theorem startNext (s : State) : Bounded s (startNext s) := by
  unfold Machine.startNext startNotice
  repeat' split
  · exact withLink le_rfl
  · exact of_same rfl rfl rfl (fun _ => rfl) rfl
  · exact startBelow s
  · exact (withFaults (discardNotices_kept _ _)).trans (startBelow _)

theorem endSource (source : TxSource) (s : State) : Bounded s (endSource source s) := by
  unfold Machine.endSource
  split
  · exact (engine s _).trans (of_inner (settleOp_inner _))
  · exact withFaults ⟨rfl, id, id, fun h => by simpa using Nat.le_succ_of_le h⟩
  · exact withLink (by simp)
  · exact refl s
  · exact of_inner (Sound.endStream_inner _ s)

theorem transmissionEnd (s : State) : Bounded s (transmissionEnd s) := by
  unfold Machine.transmissionEnd
  split
  · exact (withLink (f := fun k => { k with tx := none }) le_rfl).trans (endSource _ _)
  · exact refl s

theorem expireId (i : MemId) (s : State) : Bounded s (expireId i s) := by
  unfold Machine.expireId
  split
  · exact of_kept (responseTimeout_kept i s)
  all_goals exact refl s

theorem expireClass (n : ClassNo) (s : State) : Bounded s (expireClass n s) :=
  of_same (t := s.updClass n _) rfl rfl rfl (fun _ => rfl) rfl

theorem tick (s : State) : Bounded s (tick s) := by
  have counted : Bounded s (countAll s) := of_same rfl rfl rfl (fun _ => rfl) rfl
  have confirmed : Bounded (countAll s) (expireConfirm (countAll s)) := by
    unfold expireConfirm
    split
    · exact engine _ _
    · exact refl _
  exact ((counted.trans confirmed).trans (forEach expireId allIds _)).trans
    (forEach expireClass allClasses _)

/-! ### The operations of the manager -/

theorem handReply (rq : MgmtRequest) (st : MgmtStatus) (kw : Word) (ws : List Word) (s : State) :
    Bounded s (handReply rq st kw ws s) := engine s _

theorem replyPlain (rq : MgmtRequest) (st : MgmtStatus) (s : State) : Bounded s (replyPlain rq st s) :=
  handReply rq st 0 [] s

theorem settleUnclaimed (rq : MgmtRequest) (s : State) : Bounded s (settleUnclaimed rq s) := by
  unfold Machine.settleUnclaimed
  repeat' split
  · exact (engine s _).trans (replyPlain _ _ _)
  · exact (engine s _).trans (replyPlain _ _ _)
  · exact replyPlain _ _ s

theorem takeMgmt (rq : MgmtRequest) (bad : Bool) {run : State → State} (ran : ∀ s, Bounded s (run s)) (s : State) :
    Bounded s (takeMgmt rq bad run s) := by
  have claim : Bounded s (if rq.code == 0x02 then s else Machine.abandonClaim rq.lane s) := by
    split
    · exact refl s
    · exact abandonClaim _ s
  unfold Machine.takeMgmt
  split
  · exact refl s
  · refine claim.trans ?_
    dsimp only
    generalize (if rq.code == 0x02 then s else Machine.abandonClaim rq.lane s) = t
    repeat' split
    · exact report _ t
    · exact settleUnclaimed rq t
    · exact (replyPlain rq .notManager t).trans (report _ _)
    · exact handReply _ _ _ _ t
    · exact replyPlain _ _ t
    · exact (engine t _).trans (ran _)

theorem readRow (rq : MgmtRequest) (ws : List Word) (s : State) : Bounded s (readRow rq ws s) := by
  unfold Machine.readRow
  split
  · exact replyPlain _ _ s
  · exact replyPlain _ _ s
  · exact handReply _ _ _ _ s

theorem settleLoad (rq : MgmtRequest) (refusal : Option MgmtStatus) {load : State → State} (ws : List Word) {s : State}
    (loaded : Bounded s (load s)) : Bounded s (settleLoad rq refusal load ws s) := by
  unfold Machine.settleLoad
  split
  · split
    · exact (replyPlain _ _ s).trans (report _ _)
    · exact replyPlain _ _ s
  · exact loaded.trans (handReply _ _ _ _ _)

theorem loadPort (rq : MgmtRequest) (row : Word) (ws : List Word) (s : State) : Bounded s (loadPort rq row ws s) := by
  refine settleLoad rq _ _ ?_
  have placed : Bounded s { s with portRow := PortRow.ofWords ws } := of_same rfl rfl rfl (fun _ => rfl) rfl
  unfold putPort
  split
  · exact placed.trans (of_inner (invalidateScope_inner _ _))
  · exact placed

theorem loadAgents (rq : MgmtRequest) (row : Word) (ws : List Word) (s : State) : Bounded s (loadAgents rq row ws s) := by
  unfold Machine.loadAgents
  split
  · exact settleLoad rq _ _ (of_same rfl rfl rfl (fun _ => rfl) rfl)
  · exact replyPlain _ _ s

theorem loadWindows (rq : MgmtRequest) (row : Word) (ws : List Word) (s : State) : Bounded s (loadWindows rq row ws s) := by
  unfold Machine.loadWindows
  split
  · exact settleLoad rq _ _ (of_same rfl rfl rfl (fun _ => rfl) rfl)
  · exact replyPlain _ _ s

theorem loadAreas (rq : MgmtRequest) (row : Word) (ws : List Word) (s : State) : Bounded s (loadAreas rq row ws s) := by
  unfold Machine.loadAreas
  split
  · exact settleLoad rq _ _ (of_same rfl rfl rfl (fun _ => rfl) rfl)
  · exact replyPlain _ _ s

theorem loadClasses (rq : MgmtRequest) (row : Word) (ws : List Word) (s : State) : Bounded s (loadClasses rq row ws s) := by
  unfold Machine.loadClasses
  split
  · exact settleLoad rq _ _ (of_same rfl rfl rfl (fun _ => rfl) rfl)
  · exact replyPlain _ _ s

theorem loadRoutes (rq : MgmtRequest) (row : Word) (ws : List Word) (s : State) : Bounded s (loadRoutes rq row ws s) := by
  unfold Machine.loadRoutes
  split
  · exact settleLoad rq _ _ { refl s with }
  · exact replyPlain _ _ s

theorem loadTable (rq : MgmtRequest) (table : Nat) (row : Word) (ws : List Word) (s : State) :
    Bounded s (loadTable rq table row ws s) := by
  unfold Machine.loadTable
  split
  · exact loadPort _ _ _ s
  · exact loadAgents _ _ _ s
  · exact loadWindows _ _ _ s
  · exact loadAreas _ _ _ s
  · exact loadClasses _ _ _ s
  · exact loadRoutes _ _ _ s
  · exact replyPlain _ _ s

theorem commit (rq : MgmtRequest) (s : State) : Bounded s (commit rq s) := by
  unfold Machine.commit
  split
  all_goals exact of_same rfl rfl rfl (fun _ => rfl) rfl

theorem invalidate (rq : MgmtRequest) (ws : List Word) (s : State) : Bounded s (invalidate rq ws s) := by
  unfold Machine.invalidate
  split
  · exact (of_inner (invalidateScope_inner _ s)).trans (handReply _ _ _ _ _)
  · exact replyPlain _ _ s

theorem sessionSuspend (rq : MgmtRequest) (l : Lane) (s : State) : Bounded s (sessionSuspend rq l s) := by
  unfold Machine.sessionSuspend
  split
  · exact (of_inner (suspendLane_inner l s)).trans (replyPlain _ _ _)
  · exact replyPlain _ _ s

theorem sessionResume (rq : MgmtRequest) (l : Lane) (s : State) : Bounded s (sessionResume rq l s) := by
  unfold Machine.sessionResume
  split
  · exact ((updLane rfl).trans (of_inner (grantRule_inner l _))).trans (replyPlain _ _ _)
  · exact replyPlain _ _ s

theorem sessionReset (rq : MgmtRequest) (l : Lane) (s : State) : Bounded s (sessionReset rq l s) := by
  unfold Machine.sessionReset
  split
  · exact replyPlain _ _ s
  · exact (engine s _).trans (of_inner (silenceNew_inner l _))

theorem throttle (rq : MgmtRequest) (n : ClassNo) (may : Bool) (f : BudgetClass → BudgetClass) (s : State) :
    Bounded s (throttle rq n may f s) := by
  unfold Machine.throttle
  split
  all_goals exact of_same rfl rfl rfl (fun _ => rfl) rfl

theorem throttleStart (rq : MgmtRequest) (ws : List Word) (s : State) : Bounded s (throttleStart rq ws s) := by
  unfold Machine.throttleStart
  split
  · exact replyPlain _ _ s
  · exact throttle _ _ _ _ s

theorem throttleRelease (rq : MgmtRequest) (ws : List Word) (s : State) : Bounded s (throttleRelease rq ws s) := by
  unfold Machine.throttleRelease
  split
  · exact replyPlain _ _ s
  · exact throttle _ _ _ _ s

theorem readFaults (rq : MgmtRequest) (ws : List Word) (s : State) : Bounded s (readFaults rq ws s) := by
  unfold Machine.readFaults
  split
  · exact replyPlain _ _ s
  · exact handReply _ _ _ _ s

theorem clearFaults (rq : MgmtRequest) (ws : List Word) (s : State) : Bounded s (clearFaults rq ws s) := by
  unfold Machine.clearFaults
  split
  · exact replyPlain _ _ s
  · refine trans ?_ (handReply _ _ _ _ _)
    exact { refl s with log := le_trans (List.length_filter_le ..) }

theorem lock (rq : MgmtRequest) (s : State) : Bounded s (lock rq s) := by
  unfold Machine.lock
  repeat' split
  all_goals exact of_same rfl rfl rfl (fun _ => rfl) rfl

theorem handover (rq : MgmtRequest) (target : Lane) (s : State) : Bounded s (handover rq target s) := by
  unfold Machine.handover
  repeat' split
  · exact replyPlain _ _ s
  · exact replyPlain _ _ s
  · exact ((replyPlain rq .done s).trans (engine _ _)).trans (withFaults (queueNotice_kept _ _))

theorem restart (rq : MgmtRequest) (s : State) : Bounded s (restart rq s) :=
  ((engine s _).trans (withFaults (discardNotices_kept _ _))).trans (of_inner (restart_inner rq s))

/-! ### Every command -/

theorem exec {c : Instr} (notReset : ∀ straps, c ≠ .lineReset straps) {s t : State} (run : exec c s = .next t) :
    Bounded s t := by
  have same : ∀ {u : State}, Bounded s u →
      Host.Outcome.next u = (Host.Outcome.next t : Host.Outcome State Fault Refusal) → Bounded s t :=
    fun r e => by cases e; exact r
  cases c with
  | lineReset straps => exact absurd rfl (notReset straps)
  | signalPresent => exact same (signalPresent s) run
  | goodMarker => exact same (goodMarker s) run
  | damagedMarker => exact same (damagedMarker s) run
  | lossOfSignal => exact same (lossOfSignal s) run
  | parcelDropped frame =>
    refine same ?_ run
    split
    · exact dropFrame frame s
    · exact refl s
  | join lane tag identifier => exact same (sessionParcel _ (takeJoin _ _ _) s) run
  | leave lane tag number => exact same (sessionParcel _ (takeLeave _ _ _) s) run
  | read lane tag number address length => exact same (requestArrives _ s) run
  | write lane tag number address length data => exact same (requestArrives _ s) run
  | claim lane tag => exact same (takeMgmt _ _ (replyPlain _ _) s) run
  | confirm lane tag => exact same (takeMgmt _ _ (replyPlain _ _) s) run
  | confirmTimerExpiry =>
    refine same ?_ run
    split
    · exact engine s _
    · exact refl s
  | release lane tag => exact same (takeMgmt _ _ (fun s => (engine s _).trans (replyPlain _ _ _)) s) run
  | handover lane tag payload => exact same (takeMgmt _ _ (handover _ _) s) run
  | readRow lane tag payload => exact same (takeMgmt _ _ (readRow _ _) s) run
  | loadRow lane tag payload => exact same (takeMgmt _ _ (loadTable _ _ _ _) s) run
  | loadRowPort lane tag row words => exact same (takeMgmt _ _ (loadPort _ _ _) s) run
  | loadRowAgents lane tag row words => exact same (takeMgmt _ _ (loadAgents _ _ _) s) run
  | loadRowWindows lane tag row words => exact same (takeMgmt _ _ (loadWindows _ _ _) s) run
  | loadRowAreas lane tag row words => exact same (takeMgmt _ _ (loadAreas _ _ _) s) run
  | loadRowClasses lane tag row words => exact same (takeMgmt _ _ (loadClasses _ _ _) s) run
  | loadRowRoutes lane tag row words => exact same (takeMgmt _ _ (loadRoutes _ _ _) s) run
  | commit lane tag => exact same (takeMgmt _ _ (commit _) s) run
  | invalidate lane tag payload => exact same (takeMgmt _ _ (invalidate _ _) s) run
  | sessionSuspend lane tag payload => exact same (takeMgmt _ _ (sessionSuspend _ _) s) run
  | sessionResume lane tag payload => exact same (takeMgmt _ _ (sessionResume _ _) s) run
  | sessionReset lane tag payload => exact same (takeMgmt _ _ (sessionReset _ _) s) run
  | throttleStart lane tag payload => exact same (takeMgmt _ _ (throttleStart _ _) s) run
  | throttleRelease lane tag payload => exact same (takeMgmt _ _ (throttleRelease _ _) s) run
  | readFaults lane tag payload => exact same (takeMgmt _ _ (readFaults _ _) s) run
  | clearFaults lane tag payload => exact same (takeMgmt _ _ (clearFaults _ _) s) run
  | lock lane tag => exact same (takeMgmt _ _ (lock _) s) run
  | restart lane tag => exact same (takeMgmt _ _ (restart _) s) run
  | status lane tag => exact same (takeMgmt _ _ (fun s => handReply _ _ _ _ s) s) run
  | unknownOperation lane tag code => exact same (takeMgmt _ _ refl s) run
  | grant ids => exact same (of_kept (grant_kept ids s)) run
  | memoryResponse id status beats => exact same (of_kept (memoryResponse_kept id status beats s)) run
  | responseTimeout id => exact same (of_kept (responseTimeout_kept id s)) run
  | windowEnd cls =>
    exact same (u := s.updClass cls BudgetClass.windowEnd) (of_same rfl rfl rfl (fun _ => rfl) rfl) run
  | slotEnd cls => exact same (u := s.updClass cls BudgetClass.slotEnd) (of_same rfl rfl rfl (fun _ => rfl) rfl) run
  | transmitStart =>
    refine same ?_ run
    split
    · exact startNext s
    · exact refl s
  | transmissionEnd => exact same (transmissionEnd s) run
  | laneDetached lane => exact same (of_inner (closeDrain_inner lane s)) run
  | finalReplyHanded => exact same (of_inner (settleOp_inner s)) run
  | restartStageMemory =>
    refine same ?_ run
    split
    · exact of_inner (restartProgress_inner s)
    · exact refl s
  | restartFinalChange => exact same (of_inner (restartMemory_inner s)) run

/-- The part after LINE_RESET holds nothing (R154). -/
theorem lineReset {straps : BitVec 4} {s t : State} (run : Machine.exec (.lineReset straps) s = .next t) : Bounded s t := by
  have capacities : WithinCapacity State.reset ∧ StagingCanonical State.reset := by
    obtain ⟨_, _, _, _, _, capacities, staging, _⟩ := resetSatisfiesTheLaws
    exact ⟨capacities, staging⟩
  obtain ⟨⟨log, notices, refusals, cache, slots⟩, staging⟩ := capacities
  rw [lineReset_fields run]
  exact ⟨fun _ => log, fun _ => notices, fun _ => refusals, fun _ => cache, fun _ => slots, fun _ => staging⟩

/-- Every step keeps the capacities and the canonical form. -/
theorem step {s t : State} (run : Machine.step s = .next t) : Bounded s t := by
  unfold Machine.step at run
  split at run
  · rename_i c rest _
    refine trans (t := { s with pending := rest }) (of_same rfl rfl rfl (fun _ => rfl) rfl) ?_
    cases c with
    | lineReset straps => exact lineReset run
    | _ => exact exec (fun _ e => by cases e) run
  · exact Host.Outcome.next.inj run ▸ tick s

end Bounded

end Sys2Proof.Machine

open Sys2Proof Sys2Proof.Machine in
/-- Settles O55, operation by operation: the bounds as a relation that every operation satisfies. -/
theorem capacitiesAndStorageStaySound : Obligations.CapacitiesAndStorageStaySound := by
  intro s t run
  have bounds := Bounded.step run
  refine ⟨fun ⟨log, notices, refusals, cache, slots⟩ => ?_, bounds.staging⟩
  exact ⟨bounds.log log, bounds.notices notices, bounds.refusals refusals, bounds.cache cache, bounds.slots slots⟩
end
section
/-! Round robin (R131, R132, R178) and the arbiter's choice among lanes (O40). -/

namespace Sys2Proof.Machine

/-- The lane that stands at a place of the order after `last` comes so many lanes after it. -/
theorem lanesPast_ofNat (last : Lane) {k : Nat} (h : k < 16) :
    lanesPast last (Fin.ofNat 16 (last.val + 1 + k)) = k := by
  have bound := last.isLt
  show ((last.val + 1 + k) % 16 + 15 - last.val) % 16 = k
  omega

theorem ofNat_lanesPast (last l : Lane) : Fin.ofNat 16 (last.val + 1 + lanesPast last l) = l := by
  have bound := last.isLt
  have own := l.isLt
  refine Fin.ext ?_
  show (last.val + 1 + (l.val + 15 - last.val) % 16) % 16 = l.val
  omega

/-- Round robin finds the first lane after `last` that has the property. -/
theorem find?_lanesAfter {last l : Lane} {p : Lane → Bool} (has : p l = true)
    (first : ∀ k, p k = true → lanesPast last l ≤ lanesPast last k) : (lanesAfter last).find? p = some l := by
  have place : (List.range 16).find? (p ∘ fun k => Fin.ofNat 16 (last.val + 1 + k)) = some (lanesPast last l) := by
    rw [List.find?_range_eq_some]
    have bound : lanesPast last l < 16 := Nat.mod_lt _ (by decide)
    refine ⟨by rw [Function.comp, ofNat_lanesPast]; exact has, List.mem_range.2 bound, fun j before => ?_⟩
    by_contra found
    have later := first _ (by simpa only [Function.comp, Bool.not_eq_true', Bool.not_eq_false] using found)
    rw [lanesPast_ofNat last (before.trans bound)] at later
    omega
  rw [lanesAfter, List.find?_map, place]
  exact congrArg some (ofNat_lanesPast last l)

theorem find?_lanesAfter_none {last : Lane} {p : Lane → Bool} (no : ∀ k, p k = false) :
    (lanesAfter last).find? p = none := List.find?_eq_none.2 fun k _ => by simp [no k]

/-- A lane offers its oldest unissued slot under the conditions of R130, R113 and R94. -/
theorem offer_eq_some_iff {s : State} {l : Lane} {q : Slot} : s.offer l = some q ↔ s.offers l q := by
  have joined : (s.lane l).mayOffer = true ↔ (s.lane l).session = .active
      ∨ ((s.lane l).session = .draining ∧ (s.lane l).drain = .answered) := by simp [LaneState.mayOffer]
  have policer : (s.cls (s.agent l).cls).allows q.dir (unitsFor q.length) = true ↔
      ¬((s.cls (s.agent l).cls).holding = true ∧ (s.cls (s.agent l).cls).row.counts q.dir = true
        ∧ 0 < (s.cls (s.agent l).cls).slotUsed
        ∧ (s.cls (s.agent l).cls).row.allowance < (s.cls (s.agent l).cls).slotUsed + unitsFor q.length) := by
    simp only [BudgetClass.allows, Bool.not_eq_true', ← Bool.not_eq_true, Bool.and_eq_true, decide_eq_true_iff, and_assoc]
  have space : (q.dir == .write || decide (unitsFor q.length ≤ s.readRoom l)) = true ↔
      (q.dir = .read → unitsFor q.length ≤ s.readRoom l) := by cases q.dir <;> simp
  refine Iff.trans ?_ (and_congr joined (and_congr_right fun _ => and_congr_right fun _ => and_congr_right fun _ =>
    and_congr policer space))
  unfold State.offer LaneState.oldestUnissued
  dsimp only
  constructor
  · intro h
    split at h
    · rename_i may
      split at h
      · rename_i p oldest
        split at h
        · rename_i conditions
          obtain rfl := Option.some.inj h
          simp only [Bool.and_eq_true, beq_iff_eq, decide_eq_true_iff] at may conditions
          obtain ⟨⟨queued, allowed⟩, fits⟩ := conditions
          exact ⟨may.1, oldest, queued, may.2, allowed, fits⟩
        · cases h
      · cases h
    · cases h
  · rintro ⟨may, oldest, queued, outstanding, allowed, fits⟩
    simp only [may, outstanding, oldest, queued, allowed, fits, decide_true, Bool.and_self, beq_self_eq_true, if_true]

theorem isCandidate_iff {s : State} {p : Priority} {l : Lane} :
    s.isCandidate p l = true ↔ (s.agent l).priority = p ∧ ∃ q, s.offers l q := by
  simp [State.isCandidate, Option.isSome_iff_exists, offer_eq_some_iff]

/-- The run's lane is chosen while it is a candidate with grants of its tenure left (R132). -/
theorem runChoice_eq_some_iff {s : State} {l : Lane} : s.runChoice = some l ↔
    ∃ n, s.port.run = some (l, n) ∧ s.isCandidate .normal l = true ∧ n < s.portRow.tenure := by
  unfold State.runChoice
  split
  · rename_i k n run
    simp only [run]
    split <;> rename_i keeps
    · simp only [Bool.and_eq_true, decide_eq_true_iff] at keeps
      constructor
      · rintro ⟨⟩
        exact ⟨n, rfl, keeps⟩
      · rintro ⟨m, e, _⟩
        cases e
        rfl
    · refine ⟨(nomatch ·), ?_⟩
      rintro ⟨m, e, holds⟩
      cases e
      exact absurd holds (by simpa using keeps)
  · rename_i run
    simp [run]

end Sys2Proof.Machine

open Sys2Proof Sys2Proof.Machine in
/-- Settles O40: the three choices of R131 and R132, each a round robin or the run's lane. -/
theorem theArbiterChoosesInOrder : Obligations.TheArbiterChoosesInOrder := by
  intro l s candidate first port
  have no : ∀ {p : Priority}, (∀ k, ¬candidate p k) → ∀ k, s.isCandidate p k = false := fun none k =>
    Bool.eq_false_iff.2 fun h => none k (isCandidate_iff.1 h)
  have robin : ∀ {p : Priority} {last : Lane}, first p last → (lanesAfter last).find? (s.isCandidate p) = some l :=
    fun h => find?_lanesAfter (isCandidate_iff.2 h.1) fun k hk => h.2 k (isCandidate_iff.1 hk)
  refine ⟨fun q => offer_eq_some_iff, fun urgent => ?_, fun none => ⟨fun n run normal tenure => ?_, fun ended => ?_⟩⟩
  · simp only [State.laneChoice, show s.urgentChoice = some l from robin urgent]
    rfl
  · have noUrgent : s.urgentChoice = Option.none := find?_lanesAfter_none (no none)
    have kept : s.runChoice = some l := runChoice_eq_some_iff.2 ⟨n, run, isCandidate_iff.2 normal, tenure⟩
    simp only [State.laneChoice, noUrgent, kept, MemoryPort.runGrant, show s.port.run = some (l, n) from run]
    rfl
  · have noUrgent : s.urgentChoice = Option.none := find?_lanesAfter_none (no none)
    have noRun : s.runChoice = Option.none := Option.eq_none_iff_forall_not_mem.2 fun k hk => by
      obtain ⟨n, run, normal, tenure⟩ := runChoice_eq_some_iff.1 hk
      exact ended k n run ⟨isCandidate_iff.1 normal, tenure⟩
    refine ⟨fun normal => ?_, fun noNormal => ?_⟩
    · simp only [State.laneChoice, noUrgent, noRun, show s.normalChoice = some l from robin normal]
      rfl
    · simp only [State.laneChoice, noUrgent, noRun, show s.normalChoice = Option.none from find?_lanesAfter_none (no noNormal)]
      rfl
end
section
/-! The start of a stream item (O51). -/

namespace Sys2Proof.Machine

theorem discardNotices_of_empty {u : FaultUnit} (empty : u.notices = []) (kept : Nat) : u.discardNotices kept = u := by
  cases u
  cases empty
  simp [FaultUnit.discardNotices]

/-- With no reply and no notice the choice lies below the notice queue (R178). -/
theorem startNext_of_empty {s : State} (reply : s.mgmt.reply = none) (notices : s.faults.notices = []) :
    startNext s = startBelow s := by
  have same : s.withFaults (fun u => u.discardNotices 0) = s := by
    show { s with faults := s.faults.discardNotices 0 } = s
    rw [discardNotices_of_empty notices]
  unfold startNext startNotice
  rw [reply, notices]
  dsimp only [List.head?_nil]
  rw [same]
  split <;> rfl

/-- With every other source empty the oldest item of the first lane whose stream holds one starts (R178). -/
theorem transmitStart_stream {l : Lane} {item : StreamItem} {rest : List StreamItem} {s : State} (up : s.link.state = .up)
    (free : s.link.tx = none) (reply : s.mgmt.reply = none) (notices : s.faults.notices = []) (refusals : s.link.refusals = [])
    (credit : ∀ k, (s.lane k).session = .active → (s.lane k).joinReplySent = true → (s.lane k).creditWaiting = none)
    (stream : (s.lane l).stream = item :: rest)
    (first : ∀ k, (s.lane k).stream ≠ [] → lanesPast s.link.lastStream l ≤ lanesPast s.link.lastStream k) :
    exec .transmitStart s = .next (startItem l item (s.withLink fun k => { k with lastStream := l })) := by
  have may : s.mayTransmit = true := by simp [State.mayTransmit, (linkUp_iff s).2 up, free]
  have noCredit : s.creditChoice = none := find?_lanesAfter_none fun k => by
    simp only [State.creditEligible, Bool.and_eq_false_iff, beq_eq_false_iff_ne, Option.isSome_eq_false_iff, Option.isNone_iff_eq_none]
    by_cases active : (s.lane k).session = .active
    · by_cases sent : (s.lane k).joinReplySent = true
      · exact .inr (credit k active sent)
      · exact .inl (.inr (by simpa using sent))
    · exact .inl (.inl active)
  have chosen : s.streamChoice = some l :=
    find?_lanesAfter (by simp [stream]) fun k hk => first k (by simpa using hk)
  show Host.Outcome.next (if s.mayTransmit then startNext s else s) = _
  rw [if_pos may, startNext_of_empty reply notices]
  simp only [startBelow, refusals, noCredit, chosen, List.head?_nil, startStream, stream, List.head?_cons]

/-- The parcel of a slot's answer (R32, R36). -/
theorem Slot.answer_eq (q : Slot) (lane : Lane) (m : Memory) (free : Nat) : q.answer lane m free =
    ⟨if q.dir = .read then 0x85 else 0x86, BitVec.ofNat 8 lane.val, q.tag.setWidth 8, q.number, BitVec.ofNat 16 q.length,
      (q.status.getD .ok).code, q.address, 0, q.payload m free⟩ := by
  cases h : q.dir <;> simp [Slot.answer, partParcel, Dir.answerKind, h]

theorem Slot.payload_of_write {q : Slot} (write : q.dir = .write) (m : Memory) (free : Nat) : q.payload m free = [] := by
  simp [Slot.payload, write]

theorem Slot.payload_of_failed {q : Slot} {status : RespStatus} (read : q.dir = .read) (has : q.status = some status)
    (ok : status ≠ .ok) (corrected : status ≠ .corrected) (m : Memory) (free : Nat) : q.payload m free = [] := by
  cases status <;> simp_all [Slot.payload, RespStatus.carriesData]

/-- A READ that is OK or CORRECTED carries its data, or zeros for a SINK (R98). -/
theorem Slot.payload_of_data {q : Slot} {status : RespStatus} (read : q.dir = .read) (has : q.status = some status)
    (good : status = .ok ∨ status = .corrected) (m : Memory) (free : Nat) :
    q.payload m free = if q.isSink then List.replicate q.length 0 else q.data m free := by
  have carries : status.carriesData = true := by rcases good with rfl | rfl <;> rfl
  simp [Slot.payload, read, has, carries]

theorem Slot.isSink_eq_true_iff {q : Slot} : q.isSink = true ↔ ∃ c, q.capture = some c ∧ c.kind = .sink := by
  cases h : q.capture <;> simp [Slot.isSink, h]

theorem Slot.data_length (q : Slot) (m : Memory) (free : Nat) : (q.data m free).length = q.length := by
  simp [Slot.data]

/-- A byte of a slot's data is the byte of its unit (R98). -/
theorem Slot.data_getElem? {q : Slot} {m : Memory} (free : Nat) {k : Nat} {u : HeldUnit} {b : Byte} (inside : k < q.length)
    (unit : q.held[k / 64]? = some u) (byte : Memory.read m (u.unit * 64 + k % 64) = some b) :
    (q.data m free)[k]? = some b := by
  have placed : Memory.place m (q.held.map (·.unit)) free k = b := by
    rw [Memory.place, placeAddress_of_held unit, Option.bind_some, byte, Option.getD_some]
  rw [Slot.data, List.getElem?_map, List.getElem?_range inside, Option.map_some, placed]

end Sys2Proof.Machine

open Sys2Proof Sys2Proof.Machine in
/-- Settles O51: the choice falls on the lane's stream, and the parcel is the item's. -/
theorem theOldestStreamItemStarts : Obligations.TheOldestStreamItemStarts := by
  refine ⟨⟨rfl, rfl, rfl⟩, ?_⟩
  intro l item rest s r run header started up free reply notices refusals credit stream first
  have start := transmitStart_stream up free reply notices refusals credit stream first
  refine ⟨fun st tag number e => ?_, fun st tag number e => ?_, fun tag number e => ?_, fun tag q status e found has tags => ?_⟩
  · subst e
    exact start
  · subst e
    exact start
  · subst e
    exact start
  · subst e
    obtain rfl : q.tag = tag := slot?_tag found
    have ran : run = .next ((send (.stream l) (q.answer l s.staging s.freeCount)
        ((s.withLink fun k => { k with lastStream := l }).updSlot l q.tag fun q => { q with stage := .sending })).useFree
          freeStride) := start.trans (by
      simp only [startItem, show (s.withLink fun k => { k with lastStream := l }).slot? l q.tag = some q from found]
      rfl)
    have lane : ((s.withLink fun k => { k with lastStream := l }).updSlot l q.tag
        fun q => { q with stage := .sending }).lane l = r.updSlot q.tag fun q => { q with stage := .sending } :=
      updSlot_lane_self _ _ _ _
    refine ⟨_, q.payload s.staging s.freeCount, ran, ?_, ?_, ?_, ?_, fun k h => ?_, rfl, rfl, rfl, rfl, fun write => ?_,
      fun read ok corrected => ?_, fun read good => ?_⟩
    · show { s.link with tx := some ⟨.stream l, q.answer l s.staging s.freeCount⟩, lastStream := l } = _
      rw [Slot.answer_eq, has]
      rfl
    · show (((s.withLink _).updSlot l q.tag _).lane l).slot? q.tag = _
      rw [lane]
      exact (slot?_updSlot_self r q.tag (fun q => { q with stage := .sending }) fun _ => rfl).trans (congrArg _ found)
    · show (((s.withLink _).updSlot l q.tag _).lane l).tags = _
      rw [lane]
      exact updSlot_tags r q.tag _ fun _ => rfl
    · show (((s.withLink _).updSlot l q.tag _).lane l).stream = _
      rw [lane]
      rfl
    · exact updSlot_lane_ne (s.withLink _) _ _ h
    · exact Slot.payload_of_write write _ _
    · exact Slot.payload_of_failed read has ok corrected _ _
    · rw [Slot.payload_of_data read has good]
      refine ⟨by split <;> simp [Slot.data_length], fun sink => ?_, fun notSink k u b inside unit byte => ?_⟩
      · rw [if_pos (Slot.isSink_eq_true_iff.2 sink)]
        exact fun b hb => List.eq_of_mem_replicate hb
      · rw [if_neg fun sink => by
          obtain ⟨c, hc, kind⟩ := Slot.isSink_eq_true_iff.1 sink
          exact notSink c hc kind]
        exact Slot.data_getElem? _ inside unit byte
end
section
/-! An accepted READ (O37): the slot at the tail of its lane's list, and one that is COMPLETE from acceptance. -/

namespace Sys2Proof.Machine

/-- A request as `State.accepting` describes it passes the checks, where the payload's length and the credit suit it too. -/
theorem State.accepting.passes {s : State} {rq : Request} {length : BitVec 16}
    (h : s.accepting rq.lane rq.tag rq.number length) (same : rq.length = length.toNat)
    (data : rq.dir = .write → rq.data.length = rq.length)
    (credit : rq.dir = .write → (rq.length + 63) / 64 ≤ (s.lane rq.lane).credit) : s.Passes rq where
  stage := h.stage
  active := h.active
  number := h.number
  length := by
    rw [Bool.eq_false_iff, Ne, badLength_iff]
    have notEmpty := h.notEmpty
    have fits := h.fits
    rintro (empty | long | ⟨write, other⟩)
    · omega
    · omega
    · exact other (data write)
  fresh := by
    rw [← Option.not_isSome_iff_eq_none, slot?_isSome_iff]
    rintro ⟨q, mem, tag⟩
    exact h.tagFree q mem tag
  room := h.room
  credit := by
    rw [Bool.eq_false_iff, Ne, Request.overruns, Bool.and_eq_true, beq_iff_eq, decide_eq_true_iff]
    rintro ⟨write, less⟩
    exact Nat.not_lt.2 (credit write) less

/-! ### Waiters, units and issued counts that stay -/

theorem withoutSlot_of_none {l : Lane} {tag : Tag} {ws : List PieceRef} (h : ∀ p ∈ ws, ¬(p.lane = l ∧ p.tag = tag)) :
    withoutSlot l tag ws = ws := by
  refine List.filter_eq_self.2 fun p hp => ?_
  have other := not_and_or.1 (h p hp)
  simpa using other

/-- Where no walk holds a piece of the slot, and every entry of the waiting list a piece, nothing is withdrawn (R75). -/
theorem dropWaiters_of_noWaiterOf {l : Lane} {tag : Tag} {s : State} (free : s.noWaiterOf l tag)
    (nonempty : ∀ e ∈ s.xlat.waiting, e.waiters ≠ []) : dropWaiters l tag s = s := by
  obtain ⟨walkFree, waitingFree⟩ := free
  have walks : mapVec (Option.map fun w => { w with waiters := withoutSlot l tag w.waiters }) s.xlat.walks = s.xlat.walks := by
    refine Vector.ext fun i hi => ?_
    rw [mapVec_getNat]
    cases e : s.xlat.walks[i] with
    | none => rfl
    | some x => rw [Option.map_some, withoutSlot_of_none (walkFree ⟨i, hi⟩ x e)]
  have waiting : ((s.xlat.waiting.map fun x => { x with waiters := withoutSlot l tag x.waiters }).filter fun x =>
      !x.waiters.isEmpty) = s.xlat.waiting := by
    have unchanged : (s.xlat.waiting.map fun x => { x with waiters := withoutSlot l tag x.waiters }) = s.xlat.waiting :=
      (List.map_congr_left fun e he => by rw [withoutSlot_of_none (waitingFree e he)]).trans (List.map_id' _)
    rw [unchanged]
    exact List.filter_eq_self.2 fun e he => by simpa using nonempty e he
  show { s with xlat := { s.xlat with walks := _, waiting := _ } } = s
  rw [walks, waiting]

theorem updArea_of_same {s : State} {a : Fin 16} {f : Area → Area} (same : f (s.area a) = s.area a) :
    s.updArea a f = s := by
  have areas : s.areas.set a (f (s.area a)) = s.areas := by
    rw [same]
    simp [State.area]
  show { s with areas := s.areas.set a (f (s.area a)) } = s
  rw [areas]

theorem unitsReleased_of_unheld {l : Lane} {tag : Tag} {gone : HeldUnit → Bool} {q : Slot} {s : State}
    (unheld : q.held = []) : unitsReleased l tag gone q s =
      s.updSlot l tag fun q => { q with held := q.held.filter fun u => !gone u } := by
  unfold unitsReleased
  dsimp only
  rw [unheld]
  exact updArea_of_same (by cases q.dir <;> rfl)

theorem leaveIssued_of_unissued {r : LaneState} {q : Slot} (unissued : q.stage ≠ .issued) : r.leaveIssued q = r := by
  simp [LaneState.leaveIssued, unissued]

/-- A READ that holds no units, has not issued and waits for no walk becomes COMPLETE: its slot alone changes, and its lane's head
is answered (R35). -/
theorem completeSlot_of_unheld {l : Lane} {tag : Tag} {q : Slot} {st : RespStatus} {s : State}
    (found : (s.lane l).slot? tag = some q) (read : q.dir = .read) (unheld : q.held = []) (unissued : q.stage ≠ .issued)
    (free : s.noWaiterOf l tag) (nonempty : ∀ e ∈ s.xlat.waiting, e.waiters ≠ []) :
    completeSlot l tag st s =
      s.setLane l ((s.lane l).updSlot tag fun p => p.completed .read st).headAnswered := by
  have dropped : ∀ r, dropWaiters l tag (s.setLane l r) = s.setLane l r := fun r =>
    dropWaiters_of_noWaiterOf (s := s.setLane l r) free nonempty
  have completed : completeReleased l tag st q s =
      s.setLane l ((s.lane l).updSlot tag fun p => p.completed .read st) := by
    unfold completeReleased stageComplete
    rw [unitsReleased_of_unheld (q := { q with stage := .complete, status := some st }) unheld, updLane_eq_setLane, dropped,
      leaveIssued_of_unissued unissued, read]
    show State.setLane _ l _ = _
    rw [setLane_lane_self, setLane_setLane]
    congr 1
    exact updSlot_updSlot _ _ fun _ => rfl
  rw [completeSlot_of_read st found read, completed, handAnswer_eq, updLane_eq_setLane, setLane_lane_self, setLane_setLane]
  rfl

/-! ### A READ at the tail of its lane's list -/

/-- A lane's record with a slot at the tail of its list (R26). -/
def LaneState.enlisted (r : LaneState) (q : Slot) : LaneState := { r with slots := r.slots ++ [q] }

theorem enlist_read {rq : Request} {d : Decoded} {s : State} (read : rq.dir = .read) : enlist rq d s =
    s.setLane rq.lane ((s.lane rq.lane).enlisted (newSlot rq (s.lane rq.lane).number d [])) := by
  simp [enlist, read, updLane_eq_setLane, LaneState.enlisted]

theorem slot?_enlisted {r : LaneState} {q : Slot} (fresh : ∀ p ∈ r.slots, p.tag ≠ q.tag) :
    (r.enlisted q).slot? q.tag = some q := slot?_append_self fresh

/-- A change of the slot at the tail under its fresh tag. -/
theorem updSlot_enlisted {r : LaneState} {q : Slot} {f : Slot → Slot} (fresh : ∀ p ∈ r.slots, p.tag ≠ q.tag) :
    (r.enlisted q).updSlot q.tag f = r.enlisted (f q) :=
  congrArg (fun qs => { r with slots := qs }) (map_upd_append f fresh)

/-- A READ that is COMPLETE from acceptance: its slot joins the list COMPLETE, and the head is answered (R27, R35, R58). -/
theorem completeSlot_enlist_read {rq : Request} {d : Decoded} {st : RespStatus} {s : State} (read : rq.dir = .read)
    (fresh : ∀ q ∈ (s.lane rq.lane).slots, q.tag ≠ rq.tag) (stage : (newSlot rq (s.lane rq.lane).number d []).stage ≠ .issued)
    (free : s.noWaiterOf rq.lane rq.tag) (nonempty : ∀ e ∈ s.xlat.waiting, e.waiters ≠ []) :
    completeSlot rq.lane rq.tag st (enlist rq d s) = s.setLane rq.lane
      ((s.lane rq.lane).enlisted ((newSlot rq (s.lane rq.lane).number d []).completed .read st)).headAnswered := by
  have fresh : ∀ q ∈ (s.lane rq.lane).slots, q.tag ≠ (newSlot rq (s.lane rq.lane).number d []).tag := fresh
  rw [enlist_read read, ← show (newSlot rq (s.lane rq.lane).number d []).tag = rq.tag from rfl]
  have done := completeSlot_of_unheld (st := st) (s := s.setLane rq.lane _)
    ((congrArg (LaneState.slot? · _) (setLane_lane_self s rq.lane _)).trans (slot?_enlisted fresh)) read rfl stage free nonempty
  rw [setLane_lane_self, setLane_setLane, updSlot_enlisted fresh] at done
  exact done

/-- A lane whose head is COMPLETE has it answered where no answer of the lane is in its stream (R35). -/
theorem headAnswered_eq {r : LaneState} {h : Slot} (head : r.slots.head? = some h) :
    (h.stage = .complete → r.noAnswer → r.headAnswered = { r with stream := r.stream ++ [.answer h.tag] })
      ∧ (h.stage ≠ .complete ∨ ¬r.noAnswer → r.headAnswered = r) := by
  refine ⟨fun complete free => congrArg (fun xs => { r with stream := xs }) (handedStream_of_due head complete free), ?_⟩
  rintro (open_ | handed)
  · refine congrArg (fun xs => { r with stream := xs }) (handedStream_of_not_due fun q hq => ?_)
    rw [head] at hq
    exact Option.some.inj hq ▸ open_
  · exact congrArg (fun xs => { r with stream := xs }) (handedStream_of_handed (answerHanded_of_answer handed))

end Sys2Proof.Machine

open Sys2Proof Sys2Proof.Machine in
/-- Settles O37: acceptance enlists the slot; a SINK row or a failed decode makes it COMPLETE in the same change. -/
theorem readIsAccepted : Obligations.ReadIsAccepted := by
  intro lane tag number address length s l r n decoded slots run completed ok
  let rq : Request := ⟨l, tag, number, .read, address, n, []⟩
  have accepted : run = .next (accept rq s) := congrArg Host.Outcome.next (requestArrives_of_passes ok.up ok.noClaim
    (State.accepting.passes (rq := rq) ok rfl (fun h => nomatch h) (fun h => nomatch h)))
  have complete : ∀ (c : Option Capture) (st : RespStatus) (then_ : State → State),
      (newSlot rq r.number decoded []).stage ≠ .issued → newSlot rq r.number decoded [] =
        ⟨tag, r.number, .read, address, n, c, [], .translating, none, []⟩ →
      accept rq s = then_ (completeSlot l tag st (enlist rq decoded s)) → completed c st then_ := by
    intro c st then_ stage slot eq free nonempty h head
    have done := completeSlot_enlist_read (rq := rq) (d := decoded) (st := st) (s := s) rfl ok.tagFree stage free nonempty
    rw [slot] at done
    have answered := headAnswered_eq (r := { r with slots := slots c [] .complete (some st) }) head
    have ran : run = .next (then_ (s.setLane l { r with slots := slots c [] .complete (some st) }.headAnswered)) :=
      accepted.trans (congrArg Host.Outcome.next (eq.trans (congrArg then_ done)))
    refine ⟨fun stage free => ?_, fun other => ?_⟩
    · rw [answered.1 stage free] at ran
      exact ran
    · rw [answered.2 other] at ran
      exact ran
  refine ⟨fun c a e => ?_, fun c e => ?_, fun st cause e => ?_⟩
  · have e : s.decode rq = .direct c a := e
    rw [accepted, accept, e]
    dsimp only
    rw [enlist_read rfl]
    rfl
  · have e : decoded = .sink c := e
    refine complete (some c) .ok id (by rw [e]; exact Stage.noConfusion) (by rw [e]; rfl) ?_
    rw [accept, show s.decode rq = .sink c from e, e]
    rfl
  · have e : decoded = .failed st cause := e
    refine complete none st _ (by rw [e]; exact Stage.noConfusion) (by rw [e]; rfl) ?_
    rw [accept, show s.decode rq = .failed st cause from e, e]
    rfl
end
section
/-! An accepted WRITE (O38): the units it is given, its payload in them, and one that is COMPLETE from acceptance. -/

namespace Sys2Proof.Machine

/-- The units that a WRITE is given, in the words of the statements (R91, log 10). -/
theorem freeUnits_eq_unitsOfWrite (s : State) (l : Lane) (length : Nat) :
    (s.lane l).freeUnits (s.laneArea l).row.writeShare (unitsFor length) = s.unitsOfWrite l length := by
  unfold LaneState.freeUnits State.unitsOfWrite
  refine congrArg (List.take _) (List.filter_congr fun u _ => ?_)
  rw [Bool.eq_iff_iff]
  simp [LaneState.heldUnits]

/-- The slot that an accepted WRITE gets (R26, R91). -/
abbrev State.writeSlot (s : State) (rq : Request) (d : Decoded) : Slot :=
  newSlot rq (s.lane rq.lane).number d (s.unitsOfWrite rq.lane rq.length)

theorem enlist_write {rq : Request} {d : Decoded} {s : State} (write : rq.dir = .write) : enlist rq d s =
    ((s.setLane rq.lane { (s.lane rq.lane).enlisted (s.writeSlot rq d) with
      credit := (s.lane rq.lane).credit - unitsFor rq.length }).updArea (s.agent rq.lane).area fun a =>
        { a with writeOccupied := a.writeOccupied + unitsFor rq.length }).withStaging fun m =>
          Memory.put m (s.unitsOfWrite rq.lane rq.length) 0 rq.data := by
  unfold enlist
  rw [write]
  dsimp only
  rw [freeUnits_eq_unitsOfWrite]
  rfl

theorem unitsOfWrite_nodup (s : State) (l : Lane) (length : Nat) : (s.unitsOfWrite l length).Nodup :=
  (List.Nodup.filter _ List.nodup_range').sublist (List.take_sublist _ _)

/-- A payload put into different units that hold it lies there, and every other byte stays (R91). -/
theorem placed_put {m : Memory} {units : List Nat} {data : List Byte} (once : units.Nodup)
    (space : data.length ≤ 64 * units.length) : Memory.placed m (Memory.put m units 0 data) units data := by
  refine ⟨fun k b byte => ?_, fun y other => Memory.read_put_ne units y data m 0 fun j _ below place => ?_⟩
  · have inside : k < data.length := (List.getElem?_eq_some_iff.1 byte).1
    have held : k / 64 < units.length := by omega
    have unit : units[k / 64]? = some units[k / 64] := List.getElem?_eq_getElem held
    have place : placeAddress units (0 + k) = some (units[k / 64] * 64 + k % 64) := by
      rw [Nat.zero_add]
      exact congrArg (Option.map _) unit
    exact ⟨_, unit, (Memory.read_put once data m 0 k _ inside place).trans byte⟩
  · obtain ⟨u, unit, e⟩ := Option.map_eq_some_iff.1 place
    exact other j u (by omega) unit e.symm

/-- What an accepted WRITE leaves when nothing completes it: its record, its area's count and its payload (R26, R91). -/
theorem enlist_write_effect {rq : Request} {d : Decoded} {s : State} (write : rq.dir = .write)
    (data : rq.data.length = rq.length) (space : (s.unitsOfWrite rq.lane rq.length).length = unitsFor rq.length) :
    let a := (s.agent rq.lane).area
    let t := enlist rq d s
    t.lane rq.lane = { s.lane rq.lane with
        slots := (s.lane rq.lane).slots ++ [s.writeSlot rq d], credit := (s.lane rq.lane).credit - unitsFor rq.length }
      ∧ t.area a = { s.area a with writeOccupied := (s.area a).writeOccupied + unitsFor rq.length }
      ∧ (∀ b, b ≠ a → t.area b = s.area b)
      ∧ t.staging = Memory.put s.staging (s.unitsOfWrite rq.lane rq.length) 0 rq.data
      ∧ Memory.placed s.staging t.staging (s.unitsOfWrite rq.lane rq.length) rq.data
      ∧ t.faults = s.faults ∧ t.timebase = s.timebase ∧ t.classes = s.classes ∧ t.mgmt = s.mgmt ∧ t.link = s.link
      ∧ t.port = s.port ∧ t.xlat = s.xlat := by
  intro a t
  have eq : t = _ := enlist_write write
  rw [eq]
  refine ⟨?_, ?_, fun b other => ?_, rfl, placed_put (unitsOfWrite_nodup ..) ?_, rfl, rfl, rfl, rfl, rfl, rfl, rfl⟩
  · rw [withStaging_lane, updArea_lane, setLane_lane_self]
    rfl
  · rw [withStaging_area]
    exact updArea_area_self ..
  · rw [withStaging_area]
    exact updArea_area_ne _ _ other
  · have rounded : unitsFor rq.length = (rq.length + 63) / 64 := rfl
    omega

/-! ### A WRITE that becomes COMPLETE as it is accepted -/

/-- The space that the grant rule sees once a WRITE has given back the units it took from the credit (R102). -/
def State.freeAfterWrite (s : State) (rq : Request) : Nat :=
  (s.area (s.agent rq.lane).area).row.writeUnits
    - ((s.area (s.agent rq.lane).area).writeOccupied + ((s.lane rq.lane).credit - unitsFor rq.length))

/-- The grant rule is met after it (R102). -/
def State.grantsAfterWrite (s : State) (rq : Request) : Prop :=
  0 < s.freeAfterWrite rq ∧ ((s.agent rq.lane).quantum ≤ s.freeAfterWrite rq
    ∨ ((s.area (s.agent rq.lane).area).writeOccupied = 0 ∧ (s.lane rq.lane).credit - unitsFor rq.length = 0))

/-- The lane's credit after a WRITE that is COMPLETE from acceptance (R91, R93, R102). -/
def State.CreditRegranted (s t : State) (rq : Request) : Prop :=
  let r := s.lane rq.lane
  let p := t.lane rq.lane
  (s.grantsAfterWrite rq → p.credit = r.credit - unitsFor rq.length + s.freeAfterWrite rq
      ∧ p.creditWaiting = some (r.creditWaiting.getD 0 + s.freeAfterWrite rq))
    ∧ (¬s.grantsAfterWrite rq → p.credit = r.credit - unitsFor rq.length ∧ p.creditWaiting = r.creditWaiting)

/-- The stream after a slot at the tail has become COMPLETE (R35). -/
def LaneState.TailAnswered (r p : LaneState) (tag : Tag) : Prop :=
  (r.slots = [] → r.noAnswer → p.stream = r.stream ++ [.answer tag])
    ∧ ((∃ h, r.slots.head? = some h ∧ h.stage ≠ .complete) ∨ ¬r.noAnswer → p.stream = r.stream)

/-- A lane whose slot at the tail is COMPLETE has its head answered. -/
theorem tailAnswered_of_handed {r p : LaneState} {q : Slot} (complete : q.stage = .complete)
    (stream : p.stream = (r.enlisted q).handedStream) : r.TailAnswered p q.tag := by
  refine ⟨fun empty free => stream.trans ?_, ?_⟩
  · exact handedStream_of_due (r := r.enlisted q) (by simp [LaneState.enlisted, empty]) complete free
  · rintro (⟨h, head, open_⟩ | handed)
    · refine stream.trans (handedStream_of_settled (r := r.enlisted q) (h := h) ?_ (.inl open_))
      rw [LaneState.enlisted, List.head?_append, head]
      rfl
    · exact stream.trans (handedStream_of_handed (r := r.enlisted q) (answerHanded_of_answer (r := r.enlisted q) handed))

/-- What a WRITE that is COMPLETE from acceptance leaves: its slot holds no unit, and its area is as it was (R91, R93). -/
structure WriteSettled (rq : Request) (slot : Slot) (s t : State) : Prop where
  slots : (t.lane rq.lane).slots = (s.lane rq.lane).slots ++ [slot]
  stream : (s.lane rq.lane).TailAnswered (t.lane rq.lane) rq.tag
  areas : ∀ b, t.area b = s.area b
  staging : Memory.dropped s.staging t.staging (s.unitsOfWrite rq.lane rq.length)
  credit : s.CreditRegranted t rq
  others : ∀ k, k ≠ rq.lane → t.lane k = s.lane k
  port : t.port = s.port
  classes : t.classes = s.classes
  link : t.link = s.link
  mgmt : t.mgmt = s.mgmt

/-- Reports that may suspend the lane leave it so. -/
theorem WriteSettled.reported {rq : Request} {slot : Slot} {s t u : State} (h : WriteSettled rq slot s t)
    (reported : Reported rq.lane t u) : WriteSettled rq slot s u := by
  obtain ⟨x, lane, _⟩ := reported.lane
  exact
    { slots := by rw [lane]; exact h.slots
      stream := by unfold LaneState.TailAnswered; rw [lane]; exact h.stream
      areas := fun b => by simp only [State.area, reported.areas]; exact h.areas b
      staging := by rw [reported.staging]; exact h.staging
      credit := by unfold State.CreditRegranted; rw [lane]; exact h.credit
      others := fun k hk => (reported.others k hk).trans (h.others k hk)
      port := reported.port.trans h.port
      classes := reported.classes.trans h.classes
      link := reported.link.trans h.link
      mgmt := reported.mgmt.trans h.mgmt }

theorem givenBack_of_write {q : Slot} {st : RespStatus} (write : q.dir = .write) : q.givenBack st = q.held := by
  unfold Slot.givenBack
  rw [write]
  exact List.filter_eq_self.2 fun _ _ => rfl

theorem completed_of_write (q : Slot) (st : RespStatus) :
    q.completed .write st = { q with stage := .complete, status := some st, held := [] } := by
  unfold Slot.completed
  rw [show (q.held.filter fun u => !givesBack .write st u) = [] from List.filter_eq_nil_iff.2 fun _ _ => by simp [givesBack]]

/-- A WRITE that is enlisted and becomes COMPLETE in one change gives its units back (R27, R33, R93, R102). -/
theorem completeSlot_enlist_write {rq : Request} {d : Decoded} {st : RespStatus} {s : State} (write : rq.dir = .write)
    (active : (s.lane rq.lane).session = .active) (fresh : ∀ q ∈ (s.lane rq.lane).slots, q.tag ≠ rq.tag)
    (data : rq.data.length = rq.length) (space : (s.unitsOfWrite rq.lane rq.length).length = unitsFor rq.length) :
    WriteSettled rq { s.writeSlot rq d with stage := .complete, status := some st, held := [] } s
      (completeSlot rq.lane rq.tag st (enlist rq d s)) := by
  obtain ⟨lane, area, areas, staging, _, _, _, classes, mgmt, link, port, _⟩ :=
    enlist_write_effect (d := d) write data space
  have others := fun k (hk : k ≠ rq.lane) => enlist_lane_ne rq d s hk
  have agent : (enlist rq d s).agent rq.lane = s.agent rq.lane := by rw [enlist_write write]; rfl
  generalize enlist rq d s = t at *
  have fresh : ∀ q ∈ (s.lane rq.lane).slots, q.tag ≠ (s.writeSlot rq d).tag := fresh
  have found : t.slot? rq.lane rq.tag = some (s.writeSlot rq d) := by
    show (t.lane rq.lane).slot? _ = _
    rw [lane]
    exact slot?_enlisted fresh
  have dir : (s.writeSlot rq d).dir = .write := write
  have back : (s.writeSlot rq d).givenBack st = (s.writeSlot rq d).held := givenBack_of_write dir
  have heldUnits : (s.writeSlot rq d).held.map (·.unit) = s.unitsOfWrite rq.lane rq.length :=
    (List.map_map ..).trans (List.map_id' _)
  have heldLength : (s.writeSlot rq d).held.length = unitsFor rq.length := by rw [← space, ← heldUnits, List.length_map]
  have released : (t.area (s.agent rq.lane).area).release .write (s.writeSlot rq d).held = s.area (s.agent rq.lane).area := by
    rw [area, Area.release, heldLength]
    simp
  obtain ⟨slots, session, _, _, _, _, _, stream⟩ := completeSlot_lane st found
  obtain ⟨rest, restAreas, restPort, restClasses, restMgmt, _, restStaging, _⟩ := completeSlot_rest st found
  have credit := completeSlot_credit st found
  rw [dir, back, agent, released, lane] at credit
  have slots : ((completeSlot rq.lane rq.tag st t).lane rq.lane).slots = (s.lane rq.lane).slots
      ++ [{ s.writeSlot rq d with stage := .complete, status := some st, held := [] }] := by
    rw [slots, lane, dir, ← completed_of_write]
    exact map_upd_append _ fresh
  refine ⟨slots, tailAnswered_of_handed (q := { s.writeSlot rq d with stage := .complete, status := some st, held := [] })
      rfl ?_, fun b => ?_, ?_, ⟨fun granted => ?_, fun granted => ?_⟩,
    fun k hk => (rest k hk).trans (others k hk), restPort.trans port, restClasses.trans classes,
    (completeSlot_inner _ _ _ t).link.trans link, restMgmt.trans mgmt⟩
  · rw [stream, slots, lane]
    rfl
  · rw [restAreas b, agent]
    split
    · rename_i own
      rw [own, dir, back, released]
    · exact areas b ‹_›
  · rw [restStaging, back, heldUnits, staging]
    exact dropped_put (dropped_foldl _ _)
  · exact credit.1 rfl ⟨active, granted⟩
  · exact credit.2 (.inr fun due => granted due.2)

end Sys2Proof.Machine

open Sys2Proof Sys2Proof.Machine in
/-- Settles O38: acceptance enlists the WRITE with its units; a SINK row or a failed decode gives them back at once. -/
theorem writeIsAccepted : Obligations.WriteIsAccepted := by
  intro lane tag number address length data s l r n a area need units decoded run free granted completed ok same covers space
  let rq : Request := ⟨l, tag, number, .write, address, n, data⟩
  have accepted : run = .next (accept rq s) := congrArg Host.Outcome.next (requestArrives_of_passes ok.up ok.noClaim
    (State.accepting.passes (rq := rq) ok rfl (fun _ => same) (fun _ => covers)))
  have frame := completeSlot_inner rq.lane rq.tag
  obtain ⟨own, ownArea, areas, _, placed, faults, timebase, classes, mgmt, link, port, xlat⟩ :=
    enlist_write_effect (rq := rq) (d := decoded) rfl same space
  have settled : ∀ st, WriteSettled rq { s.writeSlot rq decoded with stage := .complete, status := some st, held := [] } s
      (completeSlot l tag st (enlist rq decoded s)) := fun st => completeSlot_enlist_write rfl ok.active ok.tagFree same space
  have complete : ∀ {c st t}, run = .next t → WriteSettled rq ⟨tag, r.number, .write, address, n, c, [], .complete, some st, []⟩
      s t → completed c st t := fun ran h => ⟨ran, h.slots, h.stream.1, h.stream.2, h.areas, h.staging, h.credit.1, h.credit.2,
    h.others, h.port, h.classes, h.link, h.mgmt⟩
  refine ⟨fun c x e => ?_, fun c e => ?_, fun st cause e => ?_⟩
  · have e : decoded = .direct c x := e
    have slot : s.writeSlot rq decoded = ⟨tag, r.number, .write, address, n, some c,
        [⟨some x, n, .notNeeded, none, .pending, none⟩], .queued, none, units.map fun u => ⟨u, true⟩⟩ := by
      rw [e]
      rfl
    rw [slot] at own
    refine ⟨enlist rq decoded s, accepted.trans (congrArg _ ?_), own, ownArea, placed, fun k hk => enlist_lane_ne rq _ s hk,
      areas, faults, port, classes, link, mgmt, xlat⟩
    rw [accept, show s.decode rq = .direct c x from e, e]
  · have e : decoded = .sink c := e
    have done := settled .ok
    have inner := frame .ok (enlist rq decoded s)
    rw [e] at done inner faults
    refine ⟨_, complete (accepted.trans (congrArg _ ?_)) done, inner.faults.trans faults⟩
    rw [accept, show s.decode rq = .sink c from e]
  · have e : decoded = .failed st cause := e
    have done := settled st
    have inner := frame st (enlist rq decoded s)
    rw [e] at done inner faults timebase mgmt
    refine ⟨_, complete (accepted.trans (congrArg _ ?_)) (done.reported (report_reported
      (rep := { rq.report cause with link := some rq.address }) rfl _)), ?_⟩
    · rw [accept, show s.decode rq = .failed st cause from e]
    · rw [report_faults, inner.faults, inner.claim, inner.timebase, faults, mgmt, timebase]
      rfl
end
section
/-! The last outcome of a slot (O45): the worst status of its pieces, and the units that a READ fills and keeps. -/

namespace Sys2Proof.Machine

/-! ### The worst status (R31) -/

theorem foldl_max_le_iff (xs : List Nat) (a n : Nat) : xs.foldl max a ≤ n ↔ a ≤ n ∧ ∀ x ∈ xs, x ≤ n := by
  induction xs generalizing a with
  | nil => simp
  | cons x xs ih => simp [ih, and_assoc]

/-- The greatest rank among the pieces, found on one of them and exceeded by none. -/
theorem foldl_rank_eq {ps : List Piece} {n : Nat} (le : ∀ p ∈ ps, p.status.rank ≤ n)
    (has : n = 0 ∨ ∃ p ∈ ps, p.status.rank = n) : (ps.map fun p => p.status.rank).foldl max 0 = n := by
  have bound := foldl_max_le_iff (ps.map fun p => p.status.rank) 0
  refine Nat.le_antisymm ((bound n).2 ⟨Nat.zero_le n, by simpa using le⟩) ?_
  rcases has with rfl | ⟨p, mem, rfl⟩
  · exact Nat.zero_le _
  · exact ((bound _).1 le_rfl).2 _ (List.mem_map_of_mem mem)

theorem worstStatus_of_timeout {ps : List Piece} (has : ∃ p ∈ ps, p.status = .timeout) : worstStatus ps = .timeout := by
  obtain ⟨p, mem, e⟩ := has
  unfold worstStatus
  rw [foldl_rank_eq (n := 3) (fun p _ => by cases p.status <;> decide) (.inr ⟨p, mem, by rw [e]; rfl⟩)]
  rfl

theorem worstStatus_of_fault {ps : List Piece} (noTimeout : ¬∃ p ∈ ps, p.status = .timeout)
    (has : (∃ p ∈ ps, p.status = .failed) ∨ ∃ p ∈ ps, p.status = .noTarget) : worstStatus ps = .memoryFault := by
  have le : ∀ p ∈ ps, p.status.rank ≤ 2 := fun p mem => by
    cases e : p.status with
    | timeout => exact absurd ⟨p, mem, e⟩ noTimeout
    | _ => decide
  have two : ∃ p ∈ ps, p.status.rank = 2 := by
    rcases has with ⟨p, mem, e⟩ | ⟨p, mem, e⟩ <;> exact ⟨p, mem, by rw [e]; rfl⟩
  unfold worstStatus
  rw [foldl_rank_eq le (.inr two)]
  rfl

theorem worstStatus_of_corrected {ps : List Piece} (noTimeout : ¬∃ p ∈ ps, p.status = .timeout)
    (noFailed : ¬∃ p ∈ ps, p.status = .failed) (noTarget : ¬∃ p ∈ ps, p.status = .noTarget)
    (has : ∃ p ∈ ps, p.status = .corrected) : worstStatus ps = .corrected := by
  have le : ∀ p ∈ ps, p.status.rank ≤ 1 := fun p mem => by
    cases e : p.status with
    | timeout => exact absurd ⟨p, mem, e⟩ noTimeout
    | failed => exact absurd ⟨p, mem, e⟩ noFailed
    | noTarget => exact absurd ⟨p, mem, e⟩ noTarget
    | _ => decide
  obtain ⟨p, mem, e⟩ := has
  unfold worstStatus
  rw [foldl_rank_eq le (.inr ⟨p, mem, by rw [e]; rfl⟩)]
  rfl

theorem worstStatus_of_ok {ps : List Piece} (all : ∀ p ∈ ps, p.status = .ok) : worstStatus ps = .ok := by
  unfold worstStatus
  rw [foldl_rank_eq (n := 0) (fun p mem => by rw [all p mem]; exact Nat.le_refl 0) (.inl rfl)]
  rfl

/-- A worst status with a payload: no piece has failed. -/
theorem rank_le_one_of_carriesData {ps : List Piece} (carries : (worstStatus ps).carriesData = true) :
    ∀ p ∈ ps, p.status.rank ≤ 1 := by
  have bound : (ps.map fun p => p.status.rank).foldl max 0 ≤ 1 := by
    unfold worstStatus at carries
    split at carries
    · omega
    · omega
    · cases carries
    · cases carries
  exact fun p mem => ((foldl_max_le_iff _ 0 1).1 bound).2 _ (List.mem_map_of_mem mem)

/-! ### The slot settled -/

/-- Once the piece has taken the last outcome every piece has one. -/
theorem taking_done {q : Slot} {ref : PieceRef} {o : Outcome} {held : List HeldUnit}
    (done : ∀ k x, q.pieces[k]? = some x → k ≠ ref.place → x.status ≠ .pending) :
    ∀ x ∈ (q.taking ref o.pieceStatus held).pieces, x.status ≠ .pending := fun x hx pending => by
  obtain ⟨k, hk⟩ := List.mem_iff_getElem?.1 hx
  have hk : (q.pieces.modify ref.place (Piece.taken o.pieceStatus))[k]? = some x := hk
  rw [List.getElem?_modify] at hk
  obtain ⟨y, hy, e⟩ := Option.map_eq_some_iff.1 hk
  split at e
  · rw [← e] at pending
    exact absurd pending (pieceStatus_ne_pending o)
  · rename_i other
    exact done k y hy (Ne.symm other) (e ▸ pending)

/-- A slot whose pieces all have their outcomes becomes COMPLETE with the worst status outside DRAINING SILENT (R31). -/
theorem settleSlot_of_done {l : Lane} {tag : Tag} {s : State} {q : Slot} (found : s.slot? l tag = some q)
    (issued : q.stage = .issued) (done : ∀ x ∈ q.pieces, x.status ≠ .pending) (open_ : (s.lane l).drain ≠ .silent) :
    settleSlot l tag s = completeSlot l tag (worstStatus q.pieces) s := by
  have settled : (q.stage == .issued && q.pieces.all fun p => p.status != .pending) = true := by
    rw [Bool.and_eq_true, beq_iff_eq, List.all_eq_true]
    exact ⟨issued, fun x hx => by simpa using done x hx⟩
  unfold settleSlot
  rw [found]
  dsimp only
  rw [if_pos settled, if_neg (by simpa using open_)]

/-- The stream of a lane one of whose slots has become COMPLETE (R35). -/
theorem stream_of_completed {r : LaneState} {q : Slot} {tag : Tag} {g : Slot → Slot} (found : r.slot? tag = some q)
    (tags : r.tags.Nodup) (keeps : (g q).tag = q.tag) (complete : (g q).stage = .complete) :
    (r.slots.head? = some q → r.noAnswer → (r.updSlot tag g).handedStream = r.stream ++ [.answer tag])
      ∧ (∀ h, r.slots.head? = some h → h ≠ q → h.stage ≠ .complete ∨ ¬r.noAnswer →
          (r.updSlot tag g).handedStream = r.stream) := by
  obtain rfl := slot?_tag found
  have head : ∀ h, r.slots.head? = some h → (r.updSlot q.tag g).slots.head? = some (if h.tag == q.tag then g h else h) :=
    fun h first => by rw [LaneState.updSlot, List.head?_map, first]; rfl
  refine ⟨fun first free => ?_, fun h first other settled => ?_⟩
  · have first := head q first
    rw [if_pos (by simp)] at first
    exact (handedStream_of_due (r := r.updSlot q.tag g) first complete free).trans (by rw [keeps]; rfl)
  · have apart : h.tag ≠ q.tag := fun e => other
      (List.inj_on_of_nodup_map tags (List.mem_of_mem_head? first) (slot?_mem found) e)
    have first := head h first
    rw [if_neg (by simpa using apart)] at first
    exact handedStream_of_settled (r := r.updSlot q.tag g) first settled

/-! ### The units given back -/

theorem completed_held (q : Slot) (dir : Dir) (st : RespStatus) :
    (q.completed dir st).held = q.held.filter fun u => !givesBack dir st u := rfl

/-- A WRITE, and a READ whose status carries no payload, give back every unit (R33, R34). -/
theorem givesBack_of_all {dir : Dir} {st : RespStatus} (all : dir = .write ∨ st.carriesData = false) (u : HeldUnit) :
    givesBack dir st u = true := by
  rcases all with rfl | none_
  · rfl
  · cases dir <;> simp [givesBack, none_]

/-- A READ with a payload gives back its unfilled units (R33). -/
theorem givesBack_of_data {st : RespStatus} (carries : st.carriesData = true) (u : HeldUnit) :
    givesBack .read st u = !u.filled := by simp [givesBack, carries]

/-- An area that has filled units of a READ and then takes back the unfilled ones (R96, R97). -/
theorem fill_release_unfilled {a : Area} {held filled : List HeldUnit} (length : filled.length = held.length)
    (more : filledCount held ≤ filledCount filled) :
    (a.fill (filledCount filled - filledCount held)).release .read (filled.filter fun u => !u.filled) =
      { a with
        readReserved := a.readReserved - (held.filter fun u => !u.filled).length
        readFilled := a.readFilled + ((filled.filter (·.filled)).length - (held.filter (·.filled)).length) } := by
  have none_ : (filled.filter fun u => !u.filled).filter (·.filled) = [] := by
    rw [List.filter_eq_nil_iff]
    intro u hu
    simpa using (List.mem_filter.1 hu).2
  have le : filledCount filled ≤ filled.length := List.length_filter_le ..
  have unfilled := length_filter_not_filled held
  have unfilled' := length_filter_not_filled filled
  unfold Area.release Area.fill filledCount at *
  dsimp only
  rw [none_]
  congr 1
  simp only [List.length_nil, Nat.sub_zero]
  omega

/-- A carried-out last outcome of a READ whose worst status carries a payload has brought data. -/
theorem fills_of_carriesData {q : Slot} {ref : PieceRef} {o : Outcome} {txn : Transaction} {held : List HeldUnit} {p : Piece}
    (dir : txn.dir = q.dir) (read : q.dir = .read) (piece : q.pieces[ref.place]? = some p)
    (carries : (worstStatus (q.taking ref o.pieceStatus held).pieces).carriesData = true) : o.fills txn := by
  have taken : (q.taking ref o.pieceStatus held).pieces[ref.place]? = some (p.taken o.pieceStatus) := by
    show (q.pieces.modify ref.place _)[ref.place]? = _
    rw [List.getElem?_modify, piece]
    simp
  have rank : o.pieceStatus.rank ≤ 1 := rank_le_one_of_carriesData carries _ (List.mem_of_getElem? taken)
  rw [outcome_fills_iff o txn q.dir dir]
  refine ⟨read, ?_⟩
  have answered := pieceStatus_ne_pending o
  cases e : o.pieceStatus with
  | ok => exact .inl rfl
  | corrected => exact .inr rfl
  | pending => exact absurd e answered
  | failed => rw [e] at rank; exact absurd rank (by decide)
  | noTarget => rw [e] at rank; exact absurd rank (by decide)
  | timeout => rw [e] at rank; exact absurd rank (by decide)

/-- What the piece's outcome leaves, with the area as the slot's release would leave it. -/
theorem pieceTaken_release {ref : PieceRef} {o : Outcome} {txn : Transaction} (beats : List Beat) {s : State} {q : Slot}
    {p : Piece} (found : s.slot? ref.lane ref.tag = some q) (piece : q.pieces[ref.place]? = some p)
    (dir : txn.dir = q.dir) :
    let a := (s.agent ref.lane).area
    let u := s.pieceTaken ref o txn beats
    ∃ held, Takes ref q (q.taking ref o.pieceStatus held) s u
      ∧ (u.area a).release q.dir held = (s.area a).release q.dir q.held
      ∧ (o.fills txn → held = fillUnits (q.pieceStart ref.upper) p.length 0 q.held
          ∧ u.area a = (s.area a).fill (filledCount held - filledCount q.held)
          ∧ u.staging = Memory.put s.staging (q.held.map (·.unit)) (q.pieceStart ref.upper)
              (maskedBytes txn.masks beats)) := by
  intro a u
  obtain ⟨held, takes, plain, filling⟩ := pieceTaken_cases (o := o) (txn := txn) beats found piece
  refine ⟨held, takes, ?_, filling⟩
  refine (release_eq_without _ (q.taking ref o.pieceStatus held)).trans (.trans ?_ (release_eq_without _ q).symm)
  by_cases fills : o.fills txn
  · obtain ⟨rfl, area, _⟩ := filling fills
    exact (congrArg (Area.without · _) area).trans
      (fill_without (dir.symm.trans fills.1) rfl (fillUnits_length ..) (AccountKept.fillUnits_filled ..))
  · obtain ⟨rfl, area, _⟩ := plain fills
    exact (congrArg (Area.without · _) area).trans (without_taking _ _ _ _)

/-- The bytes of a READ's last outcome lie in its units where it keeps them all (R96). -/
theorem read_of_kept_units {held filled : List HeldUnit} {m : Memory} {start : Nat} {bytes : List Byte}
    (once : (held.map (·.unit)).Nodup) (same : filled.map (·.unit) = held.map (·.unit))
    (kept : (filled.filter (·.filled)).map (·.unit) = held.map (·.unit)) {k : Nat} {u : HeldUnit} {b : Byte}
    (byte : bytes[k]? = some b) (unit : held[(start + k) / 64]? = some u) :
    Memory.read (((filled.filter fun u => !u.filled).map (·.unit)).foldl Memory.dropUnit
      (Memory.put m (held.map (·.unit)) start bytes)) (u.unit * 64 + (start + k) % 64) = some b := by
  have length : (filled.filter (·.filled)).length = filled.length := by
    rw [← List.length_map (·.unit), kept, ← same, List.length_map]
  have none_ : (filled.filter fun u => !u.filled) = [] := by
    have count := List.length_eq_length_filter_add (l := filled) (·.filled)
    exact List.eq_nil_of_length_eq_zero (by omega)
  rw [none_, ← byte]
  exact Memory.read_put once bytes m start k _ (List.getElem?_eq_some_iff.1 byte).1 (placeAddress_of_held unit)

/-- What the last outcome of a slot leaves of its lane and its area outside DRAINING SILENT, when the slot is another under its
tag (R31 to R35, R93, R97, R102). -/
structure LastOutcome (l : Lane) (tag : Tag) (q q' : Slot) (s t : State) : Prop where
  slot : (t.lane l).slot? tag = some q'
  tags : (t.lane l).tags = (s.lane l).tags
  issued : (t.lane l).issued = (s.lane l).issued - 1
  answered : (s.lane l).slots.head? = some q → (s.lane l).noAnswer →
    (t.lane l).stream = (s.lane l).stream ++ [.answer tag]
  unanswered : ∀ h, (s.lane l).slots.head? = some h → h ≠ q → h.stage ≠ .complete ∨ ¬(s.lane l).noAnswer →
    (t.lane l).stream = (s.lane l).stream
  areas : ∀ b, b ≠ (s.agent l).area → t.area b = s.area b
  others : ∀ k, k ≠ l → t.lane k = s.lane k
  port : t.port = s.port
  classes : t.classes = s.classes
  mgmt : t.mgmt = s.mgmt

/-- A slot that has taken its last outcome becomes COMPLETE. -/
theorem lastOutcome_of_takes {ref : PieceRef} {q p : Slot} {st : RespStatus} {s u : State} (takes : Takes ref q p s u)
    (found : s.slot? ref.lane ref.tag = some q) (tags : (s.lane ref.lane).tags.Nodup) (issued : p.stage = .issued) :
    LastOutcome ref.lane ref.tag q (p.completed p.dir st) s (completeSlot ref.lane ref.tag st u) := by
  have taken := takes.slot? found
  obtain ⟨f, ftag, fq, lane⟩ := takes.slot
  obtain ⟨slots, _, _, _, _, _, count, stream⟩ := completeSlot_lane st taken
  obtain ⟨others, areas, port, classes, mgmt, _, _, _⟩ := completeSlot_rest st taken
  have agent : u.agent ref.lane = s.agent ref.lane := by simp only [State.agent, takes.agents]
  let g : Slot → Slot := fun x => (f x).completed p.dir st
  have twice : (u.lane ref.lane).updSlot ref.tag (·.completed p.dir st) = (s.lane ref.lane).updSlot ref.tag g := by
    rw [lane]
    exact updSlot_updSlot _ _ ftag
  have slots : ((completeSlot ref.lane ref.tag st u).lane ref.lane).slots = ((s.lane ref.lane).updSlot ref.tag g).slots :=
    slots.trans (congrArg LaneState.slots twice)
  have stream : ((completeSlot ref.lane ref.tag st u).lane ref.lane).stream
      = ((s.lane ref.lane).updSlot ref.tag g).handedStream := by
    rw [stream, slots, lane]
    rfl
  have answers := stream_of_completed (g := g) found tags (ftag q) rfl
  exact
    { slot := by
        rw [slot?_congr slots, slot?_updSlot_self _ _ g ftag, show (s.lane ref.lane).slot? ref.tag = some q from found]
        exact congrArg (fun x => some (Slot.completed x p.dir st)) fq
      tags := by
        unfold LaneState.tags
        rw [slots]
        exact updSlot_tags _ _ g ftag
      issued := by
        rw [count, if_pos issued, lane]
        rfl
      answered := fun head free => stream.trans (answers.1 head free)
      unanswered := fun h head other settled => stream.trans (answers.2 h head other settled)
      areas := fun b hb => by
        rw [areas b, agent, if_neg hb]
        exact takes.areas b hb
      others := fun k hk => (others k hk).trans (takes.others k hk)
      port := port.trans takes.port
      classes := classes.trans takes.classes
      mgmt := mgmt.trans takes.mgmt }

/-- The units and counts once a slot that gives back every unit has become COMPLETE (R33, R34, R93, R97). -/
theorem completeSlot_units_of_all {ref : PieceRef} {q p : Slot} {st : RespStatus} {s u : State} (takes : Takes ref q p s u)
    (found : s.slot? ref.lane ref.tag = some q) (all : p.dir = .write ∨ st.carriesData = false) :
    (p.completed p.dir st).held = []
      ∧ (completeSlot ref.lane ref.tag st u).area (s.agent ref.lane).area
        = (u.area (s.agent ref.lane).area).release p.dir p.held := by
  have agent : u.agent ref.lane = s.agent ref.lane := by simp only [State.agent, takes.agents]
  obtain ⟨_, areas, _⟩ := completeSlot_rest st (takes.slot? found)
  refine ⟨List.filter_eq_nil_iff.2 fun x _ => by rw [givesBack_of_all all x]; decide, ?_⟩
  rw [areas, agent, if_pos rfl]
  exact congrArg (Area.release _ p.dir) (List.filter_eq_self.2 fun x _ => givesBack_of_all all x)

/-- A READ that becomes COMPLETE with a payload keeps its filled units (R33). -/
theorem completeSlot_units_of_data {ref : PieceRef} {q p : Slot} {st : RespStatus} {s u : State} (takes : Takes ref q p s u)
    (found : s.slot? ref.lane ref.tag = some q) (read : p.dir = .read) (carries : st.carriesData = true) :
    (p.completed p.dir st).held = p.held.filter (·.filled)
      ∧ (completeSlot ref.lane ref.tag st u).area (s.agent ref.lane).area
        = (u.area (s.agent ref.lane).area).release .read (p.held.filter fun x => !x.filled)
      ∧ (completeSlot ref.lane ref.tag st u).staging
        = ((p.held.filter fun x => !x.filled).map (·.unit)).foldl Memory.dropUnit u.staging := by
  have agent : u.agent ref.lane = s.agent ref.lane := by simp only [State.agent, takes.agents]
  obtain ⟨_, areas, _, _, _, _, staging, _⟩ := completeSlot_rest st (takes.slot? found)
  have back : p.givenBack st = p.held.filter fun x => !x.filled := by
    unfold Slot.givenBack
    rw [read]
    exact List.filter_congr fun x _ => givesBack_of_data carries x
  rw [back, read] at areas
  rw [back] at staging
  refine ⟨?_, by rw [areas, agent, if_pos rfl], staging⟩
  rw [completed_held, read]
  exact List.filter_congr fun x _ => by rw [givesBack_of_data carries x, Bool.not_not]

/-- The credit of the lane once the slot is COMPLETE, where a WRITE has given its area back to what its release leaves (R102). -/
theorem completeSlot_credit_of_takes {ref : PieceRef} {q p : Slot} {st : RespStatus} {s u : State}
    (takes : Takes ref q p s u) (found : s.slot? ref.lane ref.tag = some q) (dir : p.dir = q.dir)
    (released : (u.area (s.agent ref.lane).area).release q.dir p.held = (s.area (s.agent ref.lane).area).release q.dir q.held) :
    let r := s.lane ref.lane
    let a := (s.area (s.agent ref.lane).area).release q.dir q.held
    let free := a.row.writeUnits - (a.writeOccupied + r.credit)
    let due := r.session = .active ∧ 0 < free
      ∧ ((s.agent ref.lane).quantum ≤ free ∨ (a.writeOccupied = 0 ∧ r.credit = 0))
    let t := (completeSlot ref.lane ref.tag st u).lane ref.lane
    (q.dir = .write → due → t.credit = r.credit + free ∧ t.creditWaiting = some (r.creditWaiting.getD 0 + free))
      ∧ (q.dir = .read ∨ ¬due → t.credit = r.credit ∧ t.creditWaiting = r.creditWaiting) := by
  have agent : u.agent ref.lane = s.agent ref.lane := by simp only [State.agent, takes.agents]
  obtain ⟨f, _, _, lane⟩ := takes.slot
  have credit := completeSlot_credit st (takes.slot? found)
  rw [agent, dir, lane] at credit
  cases e : q.dir with
  | read => exact ⟨nofun, fun _ => credit.2 (.inl e)⟩
  | write =>
    rw [givenBack_of_write (dir.trans e), released, e] at credit
    exact credit

end Sys2Proof.Machine

open Sys2Proof Sys2Proof.Machine in
/-- Settles O45: the piece takes its outcome, its slot becomes COMPLETE, and the port reports. -/
theorem theLastOutcomeCompletesTheSlot : Obligations.TheLastOutcomeCompletesTheSlot := by
  intro i o beats ref timer txn q p s l r a area row start status command pieces any fault bytes filled unfilled occupied
    free granted inUse found tags issued piece done open_ stage dir long
  have status_eq : status = o.pieceStatus := by
    rcases o with st | _
    · cases st <;> rfl
    · rfl
  have command_eq : command = o.event i beats := by cases o <;> rfl
  have found' : (s.setId i o.leaves).slot? ref.lane ref.tag = some q := found
  obtain ⟨held, takes, released, filling⟩ := pieceTaken_release (o := o) (txn := txn) beats found' piece dir
  have taken := takes.slot? found'
  have every := taking_done (o := o) (held := held) done
  obtain ⟨f, _, _, lane⟩ := takes.slot
  have settled := settleSlot_of_done taken issued every (by rw [lane]; exact open_)
  have pieces_eq : (q.taking ref o.pieceStatus held).pieces = pieces := by
    show q.pieces.modify ref.place (Piece.taken o.pieceStatus) = _
    rw [← status_eq]
    rfl
  have carried := fun read carries => filling (fills_of_carriesData (held := held) dir read piece carries)
  rw [pieces_eq] at settled carried
  generalize hu : (s.setId i o.leaves).pieceTaken ref o txn beats = u at *
  have last := lastOutcome_of_takes (st := worstStatus pieces) takes found' tags issued
  have all := completeSlot_units_of_all (st := worstStatus pieces) takes found'
  have data := completeSlot_units_of_data (st := worstStatus pieces) takes found'
  have credit := completeSlot_credit_of_takes (st := worstStatus pieces) takes found' rfl released
  generalize completeSlot ref.lane ref.tag (worstStatus pieces) u = w at *
  have reported := (outcomeReport_reported ref txn.address o w).1
  obtain ⟨memId, otherIds, faults, areas, lanes, classes, link⟩ :=
    outcome_frame (txn := txn) (beats := beats) (by rw [hu]; exact settled) rfl last.port last.classes last.others last.areas
  obtain ⟨ok, corrected, failed, noTarget, timeout⟩ := outcomeFaults_cases s ref txn.address o
  obtain ⟨x, lane', _⟩ := reported.lane
  have ran := (exec_outcome (beats := beats) (o := o) inUse).trans (congrArg Host.Outcome.next
    (endTransaction_of_piece (by rw [hu, settled, last.mgmt]; exact stage)))
  rw [hu, settled] at ran
  have sameArea : ∀ b, (reportAll (outcomeReport (.piece ref) txn.address o) w).area b = w.area b := fun b => by
    simp only [State.area, reported.areas]
  refine ⟨_, (q.taking ref o.pieceStatus held).completed q.dir (worstStatus pieces), command_eq ▸ ran, ?_, ?_, rfl, pieces_eq,
    fun has => congrArg some (worstStatus_of_timeout has), fun none_ has => congrArg some (worstStatus_of_fault none_ has),
    fun t f n has => congrArg some (worstStatus_of_corrected t f n has), fun every => congrArg some (worstStatus_of_ok every),
    ?_, memId.trans (by cases o <;> rfl), otherIds, ?_, ?_, ?_, ?_, ?_, ?_, ?_, fun write => ?_, ?_, ?_, fun read bad => ?_,
    fun read good => ?_, areas, lanes, classes, link, reported.mgmt.trans last.mgmt⟩
  · rw [lane']
    exact last.slot
  · rw [lane']
    exact last.tags
  · rw [lane']
    exact last.issued
  · rw [status_eq, faults]
    exact ok
  · rw [status_eq, faults]
    exact corrected
  · rw [status_eq, faults]
    exact failed
  · rw [status_eq, faults]
    exact noTarget
  · rw [status_eq, faults]
    exact timeout
  · rw [lane']
    exact last.answered
  · rw [lane']
    exact last.unanswered
  · obtain ⟨none_, area_eq⟩ := all (.inl write)
    refine ⟨none_, (sameArea a).trans (area_eq.trans (released.trans ?_))⟩
    rw [write]
    rfl
  · rw [lane']
    rintro ⟨write, due⟩
    rw [write] at credit
    exact credit.1 rfl due
  · rw [lane']
    intro notGranted
    cases e : q.dir with
    | read => exact credit.2 (.inl e)
    | write =>
      rw [e] at credit
      exact credit.2 (.inr fun due => notGranted ⟨e, due⟩)
  · have noData : (worstStatus pieces).carriesData = false := by
      obtain ⟨notOk, notCorrected⟩ := bad
      have notOk : worstStatus pieces ≠ .ok := fun e => notOk (congrArg some e)
      have notCorrected : worstStatus pieces ≠ .corrected := fun e => notCorrected (congrArg some e)
      cases e : worstStatus pieces with
      | ok => exact absurd e notOk
      | corrected => exact absurd e notCorrected
      | _ => rfl
    obtain ⟨none_, area_eq⟩ := all (.inr noData)
    refine ⟨none_, (sameArea a).trans (area_eq.trans (released.trans ?_))⟩
    rw [read, ← show q.held.length - filled = unfilled from length_filter_not_filled q.held]
    rfl
  · have carries : (worstStatus pieces).carriesData = true := by
      rcases good with e | e <;> rw [show worstStatus pieces = _ from Option.some.inj e] <;> rfl
    obtain ⟨held_eq, fill, staging⟩ := carried read carries
    obtain ⟨kept, area_eq, staging'⟩ := data read carries
    have kept : ((q.taking ref o.pieceStatus held).completed q.dir (worstStatus pieces)).held = held.filter (·.filled) := kept
    have length : held.length = q.held.length := held_eq ▸ fillUnits_length ..
    have more : filledCount q.held ≤ filledCount held := held_eq ▸ AccountKept.fillUnits_filled ..
    have units : held.map (·.unit) = q.held.map (·.unit) := held_eq ▸ AccountKept.fillUnits_units ..
    rw [kept]
    refine ⟨fun u hu => (List.mem_filter.1 hu).2, (sameArea a).trans (area_eq.trans ?_), fun k u unit from_ upto => ?_,
      fun once keeps k u b byte unit => ?_⟩
    · exact (congrArg (Area.release · .read _) fill).trans (fill_release_unfilled length more)
    · refine List.mem_filter.2 ⟨List.mem_of_getElem? (i := k) ?_, rfl⟩
      have touched : unitTouched start p.length (0 + k) = true := by
        unfold unitTouched
        simp [Config.unitBytes, from_, upto]
      rw [held_eq, fillUnits_getElem?, unit]
      show some (⟨u.unit, u.filled || unitTouched start p.length (0 + k)⟩ : HeldUnit) = _
      rw [touched, Bool.or_true]
    · rw [reported.staging, staging', staging]
      exact read_of_kept_units once units keeps byte unit
end
section
/-! A choice and its grant, before its pieces (O43): when a grant is made, and which ids it takes. -/

namespace Sys2Proof.Machine

theorem readyWalk_eq_none {s : State} (h : s.noReadyWalk) : s.readyWalk = none := by
  refine Option.eq_none_iff_forall_ne_some.2 fun ⟨w, x⟩ ready => ?_
  obtain ⟨walk, reading⟩ := readyWalk_ready ready
  rw [h w x walk] at reading
  cases reading

/-- The three ways in which a lane is chosen (R131, R132). -/
theorem laneChoice_cases {s : State} {l : Lane} {p : MemoryPort} (h : s.laneChoice = some (l, p)) :
    s.urgentChoice = some l ∨ (s.urgentChoice = none ∧ s.runChoice = some l)
      ∨ (s.urgentChoice = none ∧ s.runChoice = none ∧ s.normalChoice = some l) := by
  unfold State.laneChoice at h
  split at h
  · rename_i k urgent
    cases h
    exact .inl urgent
  · rename_i noUrgent
    split at h
    · rename_i k run
      cases h
      exact .inr (.inl ⟨noUrgent, run⟩)
    · rename_i noRun
      obtain ⟨k, normal, e⟩ := Option.map_eq_some_iff.1 h
      cases e
      exact .inr (.inr ⟨noUrgent, noRun, normal⟩)

theorem priority_of_urgentChoice {s : State} {l : Lane} (h : s.urgentChoice = some l) : (s.agent l).priority = .urgent :=
  (isCandidate_iff.1 (List.find?_some h)).1

theorem candidate_of_laneChoice {s : State} {l : Lane} {p : MemoryPort} (h : s.laneChoice = some (l, p))
    (noUrgent : s.urgentChoice = none) : s.isCandidate .normal l = true := by
  rcases laneChoice_cases h with urgent | ⟨_, run⟩ | ⟨_, _, normal⟩
  · rw [noUrgent] at urgent
    cases urgent
  · obtain ⟨_, _, candidate, _⟩ := runChoice_eq_some_iff.1 run
    exact candidate
  · exact List.find?_some normal

/-- A choice without a grant leaves the run of an URGENT choice and of a choice from the run, and ends any other (R128, R132). -/
theorem leaveUngranted_of_laneChoice {s : State} {l : Lane} {p : MemoryPort} (h : s.laneChoice = some (l, p)) :
    let fromRun := ∃ n, s.port.run = some (l, n) ∧ n < s.portRow.tenure
    ((s.agent l).priority = .urgent ∨ fromRun → leaveUngranted s = s)
      ∧ ((s.agent l).priority = .normal → ¬fromRun →
          leaveUngranted s = { s with port := { s.port with run := none } }) := by
  intro fromRun
  refine ⟨fun kept => leaveUngranted_of_kept ?_, fun normal ended => leaveUngranted_of_ended ?_ ?_⟩
  · cases urgent : s.urgentChoice with
    | some k => exact .inl rfl
    | none =>
      have candidate := candidate_of_laneChoice h urgent
      rcases kept with priority | ⟨n, run, tenure⟩
      · have other := (isCandidate_iff.1 candidate).1
        rw [priority] at other
        cases other
      · exact .inr (by rw [runChoice_eq_some_iff.2 ⟨n, run, candidate, tenure⟩]; rfl)
  · rcases laneChoice_cases h with urgent | ⟨noUrgent, _⟩ | ⟨noUrgent, _⟩
    · have other := priority_of_urgentChoice urgent
      rw [normal] at other
      cases other
    · exact noUrgent
    · exact noUrgent
  · rcases laneChoice_cases h with urgent | ⟨_, run⟩ | ⟨_, noRun, _⟩
    · have other := priority_of_urgentChoice urgent
      rw [normal] at other
      cases other
    · obtain ⟨n, run, _, tenure⟩ := runChoice_eq_some_iff.1 run
      exact absurd ⟨n, run, tenure⟩ ended
    · exact noRun

/-- The ids named are taken exactly when they are as many different FREE ids as the grant needs (log 9). -/
theorem pickIds_of_named {s : State} {want : List MemId} {n : Nat} (length : want.length = n) (once : want.Nodup)
    (free : ∀ i ∈ want, s.memId i = .free) : s.pickIds want n = want :=
  if_pos (by
    rw [Bool.and_eq_true, Bool.and_eq_true, beq_iff_eq, decide_eq_true_iff, List.all_eq_true]
    exact ⟨⟨length, once⟩, fun i hi => isFree_iff.2 (free i hi)⟩)

theorem pickIds_of_unnamed {s : State} {want : List MemId} {n : Nat}
    (other : ¬(want.length = n ∧ want.Nodup ∧ ∀ i ∈ want, s.memId i = .free)) : s.pickIds want n = s.freeIds.take n :=
  if_neg fun named => other (by
    rw [Bool.and_eq_true, Bool.and_eq_true, beq_iff_eq, decide_eq_true_iff, List.all_eq_true] at named
    exact ⟨named.1.1, named.1.2, fun i hi => isFree_iff.1 (named.2 i hi)⟩)

/-- The lowest FREE ids, named, are taken. -/
theorem pickIds_lowest (s : State) (n : Nat) : s.pickIds (s.freeIds.take n) n = s.freeIds.take n := by
  unfold State.pickIds
  split <;> rfl

theorem length_le_freeIds {s : State} {ids : List MemId} (once : ids.Nodup) (free : ∀ i ∈ ids, s.memId i = .free) :
    ids.length ≤ s.freeIds.length :=
  (List.subperm_of_subset once fun i hi =>
    List.mem_filter.2 ⟨List.mem_finRange i, isFree_iff.2 (free i hi)⟩).length_le

/-- A grant of a lane's slot, where no walk is READY. -/
theorem grant_of_laneChoice {s : State} {l : Lane} {p : MemoryPort} {q : Slot} (ids : List MemId) (ready : s.noReadyWalk)
    (choice : s.laneChoice = some (l, p)) (offered : s.offer l = some q) : grant ids s =
      if q.pieces.length ≤ s.freeIds.length then grantSlot l q p (s.pickIds ids q.pieces.length) s else leaveUngranted s := by
  simp only [grant, readyWalk_eq_none ready, choice, offered]

end Sys2Proof.Machine
end

section
/-! The grant of a lane's slot (O43): its pieces under their ids, its units, and the charge of its class. -/

namespace Sys2Proof.Machine

/-! ### The pieces issued (R123) -/

/-- The piece as it is under its id. -/
def Piece.issuedAs (i : MemId) (p : Piece) : Piece := { p with memId := some i, status := .pending }

/-- Pieces of a lane's slot have been issued: nothing changes but the lane's record, the ids and the free values. -/
structure IssueFrame (l : Lane) (s t : State) : Prop where
  others : ∀ k, k ≠ l → t.lane k = s.lane k
  port : t.port.lastUrgent = s.port.lastUrgent ∧ t.port.lastNormal = s.port.lastNormal ∧ t.port.run = s.port.run
  portRow : t.portRow = s.portRow
  areas : t.areas = s.areas
  agents : t.agents = s.agents
  classes : t.classes = s.classes
  staging : t.staging = s.staging
  xlat : t.xlat = s.xlat
  link : t.link = s.link
  mgmt : t.mgmt = s.mgmt
  faults : t.faults = s.faults
  timebase : t.timebase = s.timebase

theorem IssueFrame.refl (l : Lane) (s : State) : IssueFrame l s s :=
  ⟨fun _ _ => rfl, ⟨rfl, rfl, rfl⟩, rfl, rfl, rfl, rfl, rfl, rfl, rfl, rfl, rfl, rfl⟩

theorem IssueFrame.trans {l : Lane} {s t u : State} (a : IssueFrame l s t) (b : IssueFrame l t u) : IssueFrame l s u where
  others k hk := (b.others k hk).trans (a.others k hk)
  port := by
    obtain ⟨urgent, normal, run⟩ := a.port
    obtain ⟨urgent', normal', run'⟩ := b.port
    exact ⟨urgent'.trans urgent, normal'.trans normal, run'.trans run⟩
  portRow := b.portRow.trans a.portRow
  areas := b.areas.trans a.areas
  agents := b.agents.trans a.agents
  classes := b.classes.trans a.classes
  staging := b.staging.trans a.staging
  xlat := b.xlat.trans a.xlat
  link := b.link.trans a.link
  mgmt := b.mgmt.trans a.mgmt
  faults := b.faults.trans a.faults
  timebase := b.timebase.trans a.timebase

theorem issuePiece_frame (l : Lane) (q : Slot) (upper : Bool) (p : Piece) (i : MemId) (s : State) :
    IssueFrame l s (issuePiece l q upper p i s) :=
  ⟨fun _ hk => updSlot_lane_ne s _ _ hk, ⟨rfl, rfl, rfl⟩, rfl, rfl, rfl, rfl, rfl, rfl, rfl, rfl, rfl, rfl⟩

theorem issuePiece_lane (l : Lane) (q : Slot) (upper : Bool) (p : Piece) (i : MemId) (s : State) :
    (issuePiece l q upper p i s).lane l =
      (s.lane l).updSlot q.tag fun x => x.modifyPiece ⟨l, q.tag, upper⟩ (Piece.issuedAs i) :=
  updSlot_lane_self s l q.tag _

theorem issuePiece_memId_self (l : Lane) (q : Slot) (upper : Bool) (p : Piece) (i : MemId) (s : State) :
    (issuePiece l q upper p i s).memId i = .inUse (.piece ⟨l, q.tag, upper⟩) s.portRow.timeout
      (pieceTransaction q upper p s.staging s.freeCount) :=
  setId_memId_self (s.updPiece ⟨l, q.tag, upper⟩ _) i _

theorem issuePiece_memId_ne (l : Lane) (q : Slot) (upper : Bool) (p : Piece) {i j : MemId} (s : State) (h : j ≠ i) :
    (issuePiece l q upper p i s).memId j = s.memId j :=
  setId_memId_ne (s.updPiece ⟨l, q.tag, upper⟩ _) _ h

/-- The pieces of a slot once some of them, each with its place, have been issued. -/
def issuedAll (ref : Bool → PieceRef) (xs : List ((Piece × Bool) × MemId)) (q : Slot) : Slot :=
  xs.foldl (fun q x => q.modifyPiece (ref x.1.2) (Piece.issuedAs x.2)) q

theorem issuedAll_fields (ref : Bool → PieceRef) (xs : List ((Piece × Bool) × MemId)) (q : Slot) :
    issuedAll ref xs q = { q with pieces := (issuedAll ref xs q).pieces } := by
  unfold issuedAll
  induction xs generalizing q with
  | nil => rfl
  | cons x xs ih => exact ih (q.modifyPiece (ref x.1.2) (Piece.issuedAs x.2))

theorem updSlot_id (r : LaneState) (tag : Tag) : r.updSlot tag (fun q => q) = r := by
  unfold LaneState.updSlot
  simp

/-- Pieces issued one after another: each in its place and under its id (R123). -/
theorem issue_forEach {l : Lane} {q : Slot} : ∀ (xs : List ((Piece × Bool) × MemId)) (s : State), (xs.map (·.2)).Nodup →
    let t := forEach xs (fun x => issuePiece l q x.1.2 x.1.1 x.2) s
    IssueFrame l s t ∧ t.lane l = (s.lane l).updSlot q.tag (issuedAll (⟨l, q.tag, ·⟩) xs)
      ∧ (∀ i, i ∉ xs.map (·.2) → t.memId i = s.memId i)
      ∧ ∀ x ∈ xs, ∃ free, t.memId x.2 = .inUse (.piece ⟨l, q.tag, x.1.2⟩) s.portRow.timeout
          (pieceTransaction q x.1.2 x.1.1 s.staging free)
  | [], s, _ => ⟨IssueFrame.refl l s, (updSlot_id _ _).symm, fun _ _ => rfl, nofun⟩
  | x :: xs, s, once => by
    rw [List.map_cons, List.nodup_cons] at once
    have first := issuePiece_frame l q x.1.2 x.1.1 x.2 s
    obtain ⟨frame, lane, idle, used⟩ := issue_forEach xs (issuePiece l q x.1.2 x.1.1 x.2 s) once.2
    refine ⟨first.trans frame, lane.trans ?_, fun i hi => ?_, fun y hy => ?_⟩
    · rw [issuePiece_lane, updSlot_updSlot]
      · rfl
      · exact fun _ => rfl
    · rw [List.map_cons, List.mem_cons, not_or] at hi
      exact (idle i hi.2).trans (issuePiece_memId_ne l q _ _ s hi.1)
    · rcases List.mem_cons.1 hy with rfl | hy
      · exact ⟨_, (idle _ once.1).trans (issuePiece_memId_self l q _ _ _ s)⟩
      · obtain ⟨free, eq⟩ := used y hy
        refine ⟨free, ?_⟩
        rw [first.portRow, first.staging] at eq
        exact eq

/-- The pieces of a slot with at most two of them, all issued (R62, R123). -/
theorem issuedAll_pieces {l : Lane} {tag : Tag} {ps : List Piece} {ids : List MemId} {q : Slot} (two : ps.length ≤ 2)
    (length : ids.length = ps.length) (same : q.pieces = ps) :
    (issuedAll (⟨l, tag, ·⟩) ((ps.zip [false, true]).zip ids) q).pieces = List.zipWith Piece.issuedAs ids ps := by
  match ps, ids, length with
  | [], [], _ => exact same
  | [p], [i], _ =>
    show q.pieces.modify 0 (Piece.issuedAs i) = _
    rw [same]
    rfl
  | [p, p'], [i, i'], _ =>
    show (q.pieces.modify 0 (Piece.issuedAs i)).modify 1 (Piece.issuedAs i') = _
    rw [same]
    rfl
  | _ :: _ :: _ :: _, _, _ => exact absurd two (by simp)

/-- The place of a piece in the list that is issued. -/
theorem mem_issued {ps : List Piece} {ids : List MemId} (two : ps.length ≤ 2) {k : Nat} {p : Piece} {i : MemId}
    (piece : ps[k]? = some p) (id : ids[k]? = some i) : ((p, k == 1), i) ∈ (ps.zip [false, true]).zip ids := by
  have place : [false, true][k]? = some (k == 1) := by
    have inside := (List.getElem?_eq_some_iff.1 piece).1
    have cases : k = 0 ∨ k = 1 := by omega
    rcases cases with rfl | rfl <;> rfl
  refine List.mem_of_getElem? (i := k) ?_
  rw [List.getElem?_zip_eq_some]
  exact ⟨List.getElem?_zip_eq_some.2 ⟨piece, place⟩, id⟩

theorem issued_ids {ps : List Piece} {ids : List MemId} (two : ps.length ≤ 2) (length : ids.length = ps.length) :
    ((ps.zip [false, true]).zip ids).map (·.2) = ids :=
  List.map_snd_zip (by rw [List.length_zip, List.length_cons, List.length_singleton]; omega)

/-! ### The charge (R111, R112) -/

/-- The charge looks at the lane's agent row and its class alone. -/
theorem chargeClass_congr {s t : State} (agents : t.agents = s.agents) (classes : t.classes = s.classes) (l : Lane) (dir : Dir)
    (n : Nat) : chargeClass l dir n t = ({ t with classes := (chargeClass l dir n s).1.classes }, (chargeClass l dir n s).2) := by
  have agent : t.agent l = s.agent l := by simp only [State.agent, agents]
  have cls : ∀ c, t.cls c = s.cls c := fun c => by simp only [State.cls, classes]
  have upd : ∀ c f, t.updClass c f = { t with classes := (s.updClass c f).classes } := fun c f => by
    simp only [State.updClass, classes, cls]
  unfold chargeClass
  simp only [agent, cls]
  split
  · rw [← classes]
  · split <;> rw [upd]

/-- A charge raises at most one report, which names no lane (R112). -/
theorem chargeClass_report {l : Lane} {dir : Dir} {n : Nat} {s : State} :
    ∀ rep ∈ (chargeClass l dir n s).2, rep.lane = none := by
  unfold chargeClass
  dsimp only
  split
  · exact nofun
  · split
    · intro rep mem
      rw [List.mem_singleton.1 mem]
    · exact nofun

/-- Reports that name no lane leave every lane (R147). -/
theorem reportAll_lanes_of_unnamed : ∀ {reps : List Report} (s : State), (∀ rep ∈ reps, rep.lane = none) →
    (reportAll reps s).lanes = s.lanes
  | [], _, _ => rfl
  | rep :: reps, s, unnamed => by
    have asks : s.faults.suspends rep = none := by
      unfold FaultUnit.suspends
      split
      · exact unnamed rep (List.mem_cons_self ..)
      · rfl
    exact (reportAll_lanes_of_unnamed _ fun r hr => unnamed r (List.mem_cons_of_mem _ hr)).trans
      (report_lanes_of_no_action asks)

end Sys2Proof.Machine
end
section
/-! The grant of a lane's slot as one change (O43). -/

namespace Sys2Proof.Machine

/-- The units that a granted slot holds: a WRITE's own, and for a READ as many free ones of the read share as it needs (R95). -/
def State.heldOnGrant (s : State) (l : Lane) (q : Slot) : List HeldUnit :=
  match q.dir with
  | .read => ((s.lane l).freeUnits (s.laneArea l).row.readShare (unitsFor q.length)).map fun u => ⟨u, false⟩
  | .write => q.held

/-- The state of a grant in which the slot is ISSUED with its units, before its pieces are (R95, R133). -/
def State.grantReserved (s : State) (l : Lane) (q : Slot) (p : MemoryPort) : State :=
  let t := (s.withPort fun _ => p).issuedSlot l q.tag
  if q.dir == .read then reserveUnits l q.tag (unitsFor q.length) t else t

theorem grantSlot_eq (l : Lane) (q : Slot) (p : MemoryPort) (ids : List MemId) (s : State) : grantSlot l q p ids s =
    let k := chargeClass l q.dir (unitsFor q.length) (issuePieces l q ids (s.grantReserved l q p))
    reportAll k.2 k.1 := rfl

theorem heldUnits_issuedSlot (s : State) (l : Lane) (tag : Tag) :
    ((s.issuedSlot l tag).lane l).heldUnits = (s.lane l).heldUnits := by
  have lane : (s.issuedSlot l tag).lane l = { (s.lane l).updSlot tag fun q => { q with stage := .issued } with
      issued := (s.lane l).issued + 1 } := updLane_lane_self s l _
  rw [lane]
  unfold LaneState.heldUnits LaneState.updSlot
  rw [List.flatMap_map]
  refine congrArg (fun f => List.flatMap f (s.lane l).slots) (funext fun q => ?_)
  split <;> rfl

/-- What the slot of a grant takes before its pieces are issued (R30, R95, R133). -/
structure GrantReserved (l : Lane) (q : Slot) (p : MemoryPort) (s t : State) : Prop where
  slot : ∃ f : Slot → Slot, (∀ x, (f x).tag = x.tag) ∧ f q = { q with stage := .issued, held := s.heldOnGrant l q }
    ∧ t.lane l = { (s.lane l).updSlot q.tag f with issued := (s.lane l).issued + 1 }
  others : ∀ k, k ≠ l → t.lane k = s.lane k
  written : q.dir = .write → t.areas = s.areas
  read : q.dir = .read → t.area (s.agent l).area = { s.area (s.agent l).area with
    readReserved := (s.area (s.agent l).area).readReserved + unitsFor q.length }
  areas : ∀ b, b ≠ (s.agent l).area → t.area b = s.area b
  port : t.port = p
  portRow : t.portRow = s.portRow
  agents : t.agents = s.agents
  classes : t.classes = s.classes
  staging : t.staging = s.staging
  xlat : t.xlat = s.xlat
  link : t.link = s.link
  mgmt : t.mgmt = s.mgmt
  faults : t.faults = s.faults
  timebase : t.timebase = s.timebase

theorem grantReserved_effect (l : Lane) (q : Slot) (p : MemoryPort) (s : State) :
    GrantReserved l q p s (s.grantReserved l q p) := by
  have lane : ((s.withPort fun _ => p).issuedSlot l q.tag).lane l =
      { (s.lane l).updSlot q.tag fun q => { q with stage := .issued } with issued := (s.lane l).issued + 1 } :=
    updLane_lane_self (s.withPort fun _ => p) l _
  have others : ∀ k, k ≠ l → ((s.withPort fun _ => p).issuedSlot l q.tag).lane k = s.lane k := fun k hk =>
    updLane_lane_ne (s.withPort fun _ => p) _ hk
  cases dir : q.dir with
  | write =>
    have eq : s.grantReserved l q p = (s.withPort fun _ => p).issuedSlot l q.tag := by
      simp [State.grantReserved, dir]
    have held : s.heldOnGrant l q = q.held := by simp [State.heldOnGrant, dir]
    rw [eq]
    exact
      { slot := ⟨fun x => { x with stage := .issued }, fun _ => rfl, by rw [held], lane⟩
        others := others
        written := fun _ => rfl
        read := fun read => by rw [dir] at read; cases read
        areas := fun _ _ => rfl
        port := rfl, portRow := rfl, agents := rfl, classes := rfl, staging := rfl, xlat := rfl, link := rfl, mgmt := rfl
        faults := rfl, timebase := rfl }
  | read =>
    have eq : s.grantReserved l q p =
        reserveUnits l q.tag (unitsFor q.length) ((s.withPort fun _ => p).issuedSlot l q.tag) := by
      simp [State.grantReserved, dir]
    have units : (((s.withPort fun _ => p).issuedSlot l q.tag).lane l).freeUnits
        (((s.withPort fun _ => p).issuedSlot l q.tag).laneArea l).row.readShare (unitsFor q.length)
        = (s.lane l).freeUnits (s.laneArea l).row.readShare (unitsFor q.length) := by
      unfold LaneState.freeUnits
      rw [heldUnits_issuedSlot]
      rfl
    have held : s.heldOnGrant l q =
        ((s.lane l).freeUnits (s.laneArea l).row.readShare (unitsFor q.length)).map fun u => ⟨u, false⟩ := by
      simp [State.heldOnGrant, dir]
    rw [eq]
    unfold reserveUnits
    dsimp only
    rw [units, ← held]
    exact
      { slot := by
          refine ⟨fun x => { x with stage := .issued, held := s.heldOnGrant l q }, fun _ => rfl, rfl, ?_⟩
          rw [updArea_lane, updSlot_lane_self, lane]
          exact congrArg (fun r : LaneState => { r with issued := (s.lane l).issued + 1 })
            (updSlot_updSlot (s.lane l) q.tag (f := fun x => { x with stage := .issued }) fun _ => rfl)
        others := fun k hk => by
          rw [updArea_lane, updSlot_lane_ne _ _ _ hk]
          exact others k hk
        written := fun write => by rw [dir] at write; cases write
        read := fun _ => updArea_area_self ..
        areas := fun _ hb => updArea_area_ne _ _ hb
        port := rfl, portRow := rfl, agents := rfl, classes := rfl, staging := rfl, xlat := rfl, link := rfl, mgmt := rfl
        faults := rfl, timebase := rfl }

/-- The charge of a grant and its report leave everything but the classes and the fault unit. -/
theorem charge_effect {l : Lane} {dir : Dir} {n : Nat} {s v : State} (agents : v.agents = s.agents)
    (classes : v.classes = s.classes) :
    let k := chargeClass l dir n v
    let t := reportAll k.2 k.1
    t.lanes = v.lanes ∧ t.port = v.port ∧ t.areas = v.areas ∧ t.staging = v.staging ∧ t.xlat = v.xlat ∧ t.link = v.link
      ∧ t.mgmt = v.mgmt ∧ t.classes = (chargeClass l dir n s).1.classes
      ∧ ((chargeClass l dir n s).2 = [] → t.faults = v.faults)
      ∧ (∀ rep, (chargeClass l dir n s).2 = [rep] →
          t.faults = v.faults.take (v.mgmt.claim == .claimed) v.timebase rep) := by
  intro k t
  have charged : k = _ := chargeClass_congr agents classes l dir n
  have unnamed := chargeClass_report (l := l) (dir := dir) (n := n) (s := s)
  have raised : (chargeClass l dir n s).2 = [] ∨ ∃ rep, (chargeClass l dir n s).2 = [rep] := by
    unfold chargeClass
    dsimp only
    split
    · exact .inl rfl
    · split
      · exact .inr ⟨_, rfl⟩
      · exact .inl rfl
  have eq : t = reportAll (chargeClass l dir n s).2 { v with classes := (chargeClass l dir n s).1.classes } := by
    show reportAll k.2 k.1 = _
    rw [charged]
  rw [eq]
  have lanes := reportAll_lanes_of_unnamed { v with classes := (chargeClass l dir n s).1.classes } unnamed
  rcases raised with none_ | ⟨rep, one⟩
  · rw [none_]
    exact ⟨rfl, rfl, rfl, rfl, rfl, rfl, rfl, rfl, fun _ => rfl, nofun⟩
  · rw [one] at lanes ⊢
    obtain ⟨_, _, link, mgmt, _, _, _, xlat, areas, staging, classes, port, _⟩ :=
      report_fields rep { v with classes := (chargeClass l dir n s).1.classes }
    refine ⟨lanes, port, areas, staging, xlat, link, mgmt, classes, nofun, fun x same => ?_⟩
    obtain rfl : rep = x := by simpa using same
    exact report_faults rep _

end Sys2Proof.Machine

open Sys2Proof Sys2Proof.Machine in
/-- Settles O43: without enough FREE ids the choice leaves its run or ends it; with them the slot, its pieces and its class take
the grant in turn. -/
theorem aGrantIssuesEveryPiece : Obligations.AGrantIssuesEveryPiece := by
  intro l q port ids s r a n charge ready choice offered tags two fromRun
  have granted := fun ids => grant_of_laneChoice ids ready choice offered
  refine ⟨fun few => ?_, fun enough unnamed => ?_, fun length once free => ?_⟩
  · have none_ : exec (.grant ids) s = .next (leaveUngranted s) :=
      congrArg Host.Outcome.next ((granted ids).trans (if_neg (Nat.not_le.2 few)))
    obtain ⟨kept, ended⟩ := leaveUngranted_of_laneChoice choice
    exact ⟨fun h => none_.trans (congrArg _ (kept h)), fun normal h => none_.trans (congrArg _ (ended normal h))⟩
  · refine congrArg Host.Outcome.next ?_
    rw [granted, granted, pickIds_of_unnamed unnamed, pickIds_lowest]
  · have enough : q.pieces.length ≤ s.freeIds.length := length ▸ length_le_freeIds once free
    have ran : exec (.grant ids) s = .next (grantSlot l q port ids s) := congrArg Host.Outcome.next (by
      rw [granted, if_pos enough, pickIds_of_named length once free])
    have found : r.slot? q.tag = some q := slot?_of_mem tags (offer_spec offered).1
    have reserved := grantReserved_effect l q port s
    obtain ⟨frame, lane, idle, used⟩ := issue_forEach (l := l) (q := q) ((q.pieces.zip [false, true]).zip ids)
      (s.grantReserved l q port) (by rw [issued_ids two length]; exact once)
    rw [issued_ids two length] at idle
    rw [grantSlot_eq] at ran
    unfold issuePieces at ran
    generalize forEach _ _ (s.grantReserved l q port) = v at *
    generalize s.grantReserved l q port = u at *
    obtain ⟨lanes, tPort, tAreas, tStaging, tXlat, tLink, tMgmt, tClasses, quiet, raised⟩ :=
      charge_effect (l := l) (dir := q.dir) (n := unitsFor q.length) (frame.agents.trans reserved.agents)
        (frame.classes.trans reserved.classes)
    generalize reportAll _ _ = t at *
    obtain ⟨f, keeps, fq, reservedLane⟩ := reserved.slot
    let g := issuedAll (⟨l, q.tag, ·⟩) ((q.pieces.zip [false, true]).zip ids)
    have gkeeps : ∀ x, (g x).tag = x.tag := fun x => by
      show (issuedAll _ _ x).tag = x.tag
      rw [issuedAll_fields]
    have gf : ∀ x, (g (f x)).tag = x.tag := fun x => (gkeeps _).trans (keeps x)
    have tLane : t.lane l = { r.updSlot q.tag (fun x => g (f x)) with issued := r.issued + 1 } := by
      rw [show t.lane l = v.lane l by simp only [State.lane, lanes], lane, reservedLane]
      exact congrArg (fun p : LaneState => { p with issued := r.issued + 1 }) (updSlot_updSlot r q.tag keeps)
    have slot : g (f q) = { q with
        stage := .issued, held := s.heldOnGrant l q, pieces := List.zipWith Piece.issuedAs ids q.pieces } := by
      have pieces := issuedAll_pieces (l := l) (tag := q.tag) (q := f q) two length (by rw [fq])
      exact (issuedAll_fields _ _ (f q)).trans (by rw [pieces, fq])
    have area : ∀ b, t.area b = u.area b := fun b => by simp only [State.area, tAreas, frame.areas]
    have memId : ∀ i, t.memId i = v.memId i := fun i => by simp only [State.memId, tPort]
    refine ⟨t, g (f q), ran, ?_, ?_, by rw [tLane], by rw [tLane]; rfl, by rw [tLane]; rfl, fun tag other => ?_,
      by rw [slot], by rw [slot], by rw [slot], by rw [slot], fun write => ⟨?_, fun b => ?_⟩,
      fun read => ⟨?_, ?_, fun b hb => (area b).trans (reserved.areas b hb)⟩, fun k p i piece id => ⟨?_, ?_⟩, fun i hi => ?_, ?_,
      tClasses, fun none_ => ⟨?_, by rw [tLane]; rfl⟩, fun rep one => ?_, fun k hk => ?_,
      tStaging.trans (frame.staging.trans reserved.staging), tXlat.trans (frame.xlat.trans reserved.xlat),
      tLink.trans (frame.link.trans reserved.link), tMgmt.trans (frame.mgmt.trans reserved.mgmt)⟩
    · rw [tLane]
      exact (slot?_updSlot_self r q.tag _ gf).trans (congrArg (Option.map _) found)
    · rw [tLane]
      exact updSlot_tags r q.tag _ gf
    · rw [tLane]
      exact slot?_updSlot_ne r _ gf other
    · rw [slot]
      show s.heldOnGrant l q = q.held
      simp only [State.heldOnGrant, write]
    · exact (area b).trans (by simp only [State.area, reserved.written write])
    · rw [slot]
      show s.heldOnGrant l q = _
      simp only [State.heldOnGrant, read]
      rfl
    · exact (area a).trans (reserved.read read)
    · rw [slot]
      show (List.zipWith Piece.issuedAs ids q.pieces)[k]? = _
      rw [List.getElem?_zipWith, id, piece]
      rfl
    · obtain ⟨value, eq⟩ := used _ (mem_issued two piece id)
      rw [reserved.portRow, reserved.staging] at eq
      refine ⟨_, (memId i).trans eq, rfl, rfl, rfl, fun read => ?_, fun write => ⟨value, ?_⟩⟩
      · simp only [pieceTransaction, read]
      · simp only [pieceTransaction, write, Slot.pieceStart, beq_iff_eq]
    · rw [memId, idle i hi]
      simp only [State.memId, reserved.port, laneChoice_ids choice]
    · rw [tPort]
      obtain ⟨urgent, normal, run⟩ := frame.port
      rw [reserved.port] at urgent normal run
      exact ⟨urgent, normal, run⟩
    · exact (quiet none_).trans (frame.faults.trans reserved.faults)
    · rw [raised rep one, frame.faults, reserved.faults, frame.mgmt, reserved.mgmt, frame.timebase, reserved.timebase]
    · rw [show t.lane k = v.lane k by simp only [State.lane, lanes], frame.others k hk, reserved.others k hk]
end
section
/-! What O44 and O49 share: the credit that failing WRITEs give back, the next index of a walk slot, and reports taken in turn. -/

namespace Sys2Proof.Machine

/-! ### Credit given back by one WRITE after another (R93, R102, R103) -/

/-- One WRITE gives its units back: write occupied, the credit committed and the waiting CREDIT after it. -/
def State.creditStep (s : State) (l : Lane) (x : Nat × Nat × Option Nat) (q : Slot) : Nat × Nat × Option Nat :=
  let occupied := x.1 - q.held.length
  let free := (s.area (s.agent l).area).row.writeUnits - (occupied + x.2.1)
  if (s.lane l).session = .active ∧ 0 < free ∧ ((s.agent l).quantum ≤ free ∨ (occupied = 0 ∧ x.2.1 = 0)) then
    (occupied, x.2.1 + free, some (x.2.2.getD 0 + free))
  else (occupied, x.2)

/-- The account of a lane's credit after these slots, with write occupied. -/
def State.creditFold (s : State) (l : Lane) (gone : List Slot) : Nat × Nat × Option Nat :=
  (gone.filter fun q => q.dir == .write).foldl (s.creditStep l)
    ((s.area (s.agent l).area).writeOccupied, (s.lane l).credit, (s.lane l).creditWaiting)

theorem creditAfter_eq (s : State) (l : Lane) (gone : List Slot) : s.creditAfter l gone = (s.creditFold l gone).2 := rfl

theorem creditStep_occupied (s : State) (l : Lane) (x : Nat × Nat × Option Nat) (q : Slot) :
    (s.creditStep l x q).1 = x.1 - q.held.length := by
  unfold State.creditStep
  dsimp only
  split <;> rfl

theorem creditFold_concat_read {s : State} {l : Lane} {gone : List Slot} {q : Slot} (read : q.dir = .read) :
    s.creditFold l (gone ++ [q]) = s.creditFold l gone := by
  simp [State.creditFold, read]

theorem creditFold_concat_write {s : State} {l : Lane} {gone : List Slot} {q : Slot} (write : q.dir = .write) :
    s.creditFold l (gone ++ [q]) = s.creditStep l (s.creditFold l gone) q := by
  simp [State.creditFold, write]

/-- Write occupied in the account is the area's, without these slots. -/
theorem creditFold_occupied (s : State) (l : Lane) (gone : List Slot) :
    (s.creditFold l gone).1 = ((s.area (s.agent l).area).without gone).writeOccupied := by
  induction gone using List.reverseRecOn with
  | nil => rfl
  | append_singleton gone q ih =>
    rw [area_without_append]
    cases dir : q.dir with
    | read =>
      rw [creditFold_concat_read dir, ih]
      simp [Area.without, unitsHeld_cons, dir]
    | write =>
      rw [creditFold_concat_write dir, creditStep_occupied, ih]
      simp [Area.without, unitsHeld_cons, dir]

/-! ### The next index of a walk slot (R76) -/

theorem setWalk_of_same {s : State} {w : WalkNo} {o : Option Walk} (walk : s.walk w = o) : s.xlat.walks.set w o = s.xlat.walks := by
  rw [← walk]
  simp [State.walk]

/-- A walk slot that is not FREE, or with no index waiting, takes none. -/
theorem takeIndex_of_idle {w : WalkNo} {s : State} (h : s.walk w ≠ none ∨ s.xlat.waiting = []) : takeIndex w s = s := by
  unfold takeIndex
  split
  · rename_i x rest free waiting
    rcases h with busy | empty
    · exact absurd free busy
    · rw [waiting] at empty
      cases empty
  · rfl

theorem takeIndex_of_free {w : WalkNo} {s : State} (free : s.walk w = none) :
    takeIndex w s = { s with xlat := s.xlat.nextIndex w } := by
  unfold takeIndex Translation.nextIndex
  rw [free]
  cases waiting : s.xlat.waiting with
  | nil =>
    dsimp only
    rw [setWalk_of_same free, ← waiting]
  | cons e rest => rfl

/-- The one FREE walk slot takes the oldest index; with no index waiting none does. -/
theorem takeIndexes_of_free {w : WalkNo} {s : State} (free : s.walk w = none)
    (only : s.xlat.waiting = [] ∨ ∀ v, v ≠ w → s.walk v ≠ none) :
    takeIndexes s = { s with xlat := s.xlat.nextIndex w } := by
  have walk_ne : ∀ v, v ≠ w → ({ s with xlat := s.xlat.nextIndex w } : State).walk v = s.walk v := fun v hv => by
    have other : w.val ≠ v.val := fun e => hv (Fin.ext e.symm)
    unfold State.walk Translation.nextIndex
    dsimp only
    split <;> simp [other]
  have busy : ∀ v, v ≠ w → s.walk v ≠ none ∨ s.xlat.waiting = [] := fun v hv => only.symm.imp (fun h => h v hv) id
  have later : ∀ v, v ≠ w → takeIndex v { s with xlat := s.xlat.nextIndex w } = { s with xlat := s.xlat.nextIndex w } :=
    fun v hv => takeIndex_of_idle (by
      rcases busy v hv with other | empty
      · exact .inl (by rw [walk_ne v hv]; exact other)
      · exact .inr (by simp [Translation.nextIndex, empty]))
  show takeIndex 1 (takeIndex 0 s) = _
  rcases walkNo_cases w with rfl | rfl
  · rw [takeIndex_of_free free, later 1 (by decide)]
  · rw [takeIndex_of_idle (busy 0 (by decide)), takeIndex_of_free free]

/-- The next index looks at the waiting list and the next age alone. -/
theorem nextIndex_congr {x y : Translation} (w : WalkNo) (waiting : y.waiting = x.waiting) (age : y.nextAge = x.nextAge) :
    (y.nextIndex w).walks[w] = (x.nextIndex w).walks[w] ∧ (y.nextIndex w).waiting = (x.nextIndex w).waiting
      ∧ (y.nextIndex w).nextAge = (x.nextIndex w).nextAge := by
  unfold Translation.nextIndex
  rw [waiting]
  cases x.waiting with
  | nil => simp [age]
  | cons e rest => simp [age]

/-- The taking of indexes changes the translation unit's lists alone. -/
theorem takeIndexes_fields (s : State) : ∃ x, takeIndexes s = { s with xlat := x } ∧ x.cache = s.xlat.cache
    ∧ ({ s with xlat := x } : State).allWaiters.Perm s.allWaiters := by
  refine forEach_rel (fun s t => ∃ x, t = { s with xlat := x } ∧ x.cache = s.xlat.cache
    ∧ ({ s with xlat := x } : State).allWaiters.Perm s.allWaiters) (fun s => ⟨s.xlat, rfl, rfl, .refl _⟩)
    (fun s t u a b => ?_) takeIndex (fun w s => ⟨(takeIndex w s).xlat, ?_⟩) allWalks s
  · obtain ⟨x, rfl, cache, waiters⟩ := a
    obtain ⟨y, rfl, cache', waiters'⟩ := b
    exact ⟨y, rfl, cache'.trans cache, waiters'.trans waiters⟩
  · have eq : takeIndex w s = { s with xlat := (takeIndex w s).xlat } := by
      unfold takeIndex
      split <;> rfl
    refine ⟨eq, ?_, eq ▸ (takeIndex_perm w s).2.1⟩
    unfold takeIndex
    split <;> rfl

/-! ### Reports taken in turn (R140, R147) -/

/-- Reports have been taken: the fault unit and the sessions alone may have changed. -/
structure AfterReports (s t : State) : Prop where
  lane : ∀ l, ∃ x, t.lane l = { s.lane l with session := x }
  areas : t.areas = s.areas
  staging : t.staging = s.staging
  mgmt : t.mgmt = s.mgmt
  link : t.link = s.link
  classes : t.classes = s.classes
  port : t.port = s.port
  xlat : t.xlat = s.xlat
  timebase : t.timebase = s.timebase

theorem AfterReports.refl (s : State) : AfterReports s s := ⟨fun _ => ⟨_, rfl⟩, rfl, rfl, rfl, rfl, rfl, rfl, rfl, rfl⟩

theorem AfterReports.trans {s t u : State} (a : AfterReports s t) (b : AfterReports t u) : AfterReports s u where
  lane l := by
    obtain ⟨x, before⟩ := a.lane l
    obtain ⟨y, after⟩ := b.lane l
    exact ⟨y, after.trans (by rw [before])⟩
  areas := b.areas.trans a.areas
  staging := b.staging.trans a.staging
  mgmt := b.mgmt.trans a.mgmt
  link := b.link.trans a.link
  classes := b.classes.trans a.classes
  port := b.port.trans a.port
  xlat := b.xlat.trans a.xlat
  timebase := b.timebase.trans a.timebase

theorem suspendLane_lane (l k : Lane) (s : State) : ∃ x, (suspendLane l s).lane k = { s.lane k with session := x } := by
  unfold suspendLane
  split
  · rw [updLane_lane]
    split
    · rename_i e
      rw [e]
      exact ⟨_, rfl⟩
    · exact ⟨_, rfl⟩
  · exact ⟨_, rfl⟩

theorem report_after (rep : Report) (s : State) : AfterReports s (report rep s) := by
  obtain ⟨_, timebase, link, mgmt, _, _, _, xlat, areas, staging, classes, port, _⟩ := report_fields rep s
  refine ⟨fun l => ?_, areas, staging, mgmt, link, classes, port, xlat, timebase⟩
  unfold report
  dsimp only
  split
  · exact suspendLane_lane _ l (s.withFaults _)
  · exact ⟨_, rfl⟩

theorem reportAll_after (reps : List Report) (s : State) : AfterReports s (reportAll reps s) :=
  forEach_rel AfterReports AfterReports.refl (fun _ _ _ => AfterReports.trans) report report_after reps s

/-- Reports taken in turn, at the claim and the time as they stand. -/
theorem reportAll_faults : ∀ (reps : List Report) (s : State), (reportAll reps s).faults = s.faultsAfter reps
  | [], _ => rfl
  | rep :: reps, s => by
    have after := report_after rep s
    have rest := reportAll_faults reps (report rep s)
    show (reportAll reps (report rep s)).faults = reps.foldl _ (s.faults.take (s.mgmt.claim == .claimed) s.timebase rep)
    rw [rest, State.faultsAfter, report_faults, after.mgmt, after.timebase]

/-! ### The READY walk slot that is chosen (R129) -/

theorem readyWalk_of_walkFirst {s : State} {w : WalkNo} {x : Walk} (first : s.walkFirst w x) : s.readyWalk = some (w, x) := by
  obtain ⟨walk, ready, older⟩ := first
  unfold State.readyWalk
  show List.foldl _ none [0, 1] = _
  rcases walkNo_cases w with rfl | rfl
  · cases other : s.walk 1 with
    | none => simp [walk, ready, other]
    | some y =>
      cases reading : y.reading with
      | true => simp [walk, ready, other, reading]
      | false =>
        have age := older 1 y (by decide) other reading
        simp [walk, ready, other, reading, Nat.not_lt.2 age.le]
  · cases other : s.walk 0 with
    | none => simp [walk, ready, other]
    | some y =>
      cases reading : y.reading with
      | true => simp [walk, ready, other, reading]
      | false =>
        have age := older 0 y (by decide) other reading
        simp [walk, ready, other, reading, age]

end Sys2Proof.Machine
end
section
/-! The waiters of a walk settled one after another (O44, O49): what each of them changes, and what they have changed together. -/

namespace Sys2Proof.Machine

/-- The slots of a lane that these waiters' failures have completed, in their order. -/
def State.gone (s : State) (fails : Slot → Bool) (ws : List PieceRef) (l : Lane) : List Slot :=
  ws.filterMap fun p => if p.lane = l then (s.waiterSlot p).filter fails else none

/-- Those of an area. -/
def State.goneIn (s : State) (fails : Slot → Bool) (ws : List PieceRef) (a : Fin 16) : List Slot :=
  ws.filterMap fun p => if (s.agent p.lane).area = a then (s.waiterSlot p).filter fails else none

theorem filter_of_fails {fails : Slot → Bool} {q : Slot} (h : fails q = true) : (some q).filter fails = some q := by
  simp [Option.filter, h]

theorem filter_of_passes {fails : Slot → Bool} {q : Slot} (h : fails q = false) : (some q).filter fails = none := by
  simp [Option.filter, h]

/-- One waiter more. -/
theorem gone_concat {s : State} {fails : Slot → Bool} {ws : List PieceRef} {p : PieceRef} {q : Slot}
    (found : s.waiterSlot p = some q) (l : Lane) : s.gone fails (ws ++ [p]) l =
      s.gone fails ws l ++ if p.lane = l ∧ fails q = true then [q] else [] := by
  unfold State.gone
  rw [List.filterMap_append, List.filterMap_cons, List.filterMap_nil, found]
  by_cases own : p.lane = l <;> cases failing : fails q <;>
    simp [own, failing, filter_of_fails, filter_of_passes]

theorem goneIn_concat {s : State} {fails : Slot → Bool} {ws : List PieceRef} {p : PieceRef} {q : Slot}
    (found : s.waiterSlot p = some q) (a : Fin 16) : s.goneIn fails (ws ++ [p]) a =
      s.goneIn fails ws a ++ if (s.agent p.lane).area = a ∧ fails q = true then [q] else [] := by
  unfold State.goneIn
  rw [List.filterMap_append, List.filterMap_cons, List.filterMap_nil, found]
  by_cases own : (s.agent p.lane).area = a <;> cases failing : fails q <;>
    simp [own, failing, filter_of_fails, filter_of_passes]

/-- In an area of one lane's slots alone they are that lane's. -/
theorem goneIn_of_alone {s : State} {fails : Slot → Bool} {l : Lane} (alone : s.aloneInArea l) (ws : List PieceRef) :
    s.goneIn fails ws (s.agent l).area = s.gone fails ws l := by
  unfold State.goneIn State.gone
  refine List.filterMap_congr fun p _ => ?_
  by_cases own : p.lane = l
  · rw [own, if_pos rfl, if_pos rfl]
  · rw [if_neg own]
    rcases alone p.lane own with empty | other
    · have absent : s.waiterSlot p = none := by
        show (s.lane p.lane).slot? p.tag = none
        rw [LaneState.slot?, empty]
        rfl
      rw [absent]
      split <;> rfl
    · rw [if_neg other]

theorem mem_gone {s : State} {fails : Slot → Bool} {ws : List PieceRef} {p : PieceRef} {q : Slot} (mem : p ∈ ws)
    (found : s.waiterSlot p = some q) (failing : fails q = true) : q ∈ s.gone fails ws p.lane :=
  List.mem_filterMap.2 ⟨p, mem, by rw [if_pos rfl, found, filter_of_fails failing]⟩

/-! ### One waiter settled -/

/-- The slot of a waiter that has failed (R28, R77 to R80). -/
def Slot.failedBy (q : Slot) (st : RespStatus) (p : PieceRef) : Slot :=
  { q with
    stage := .complete
    status := some st
    pieces := q.pieces.modify p.place fun y => { y with xlat := .failed }
    held := [] }

/-- A waiter is settled: its slot is another under its tag, and where it fails the slot gives back its units, its lane's head is
answered and its pieces leave every walk (R28, R35, R75, R93). -/
structure WaiterStep (p : PieceRef) (q q' : Slot) (failing : Bool) (t u : State) : Prop where
  slot : ∃ f : Slot → Slot, (∀ x, (f x).tag = x.tag) ∧ f q = q'
    ∧ (u.lane p.lane).slots = ((t.lane p.lane).updSlot p.tag f).slots
  session : (u.lane p.lane).session = (t.lane p.lane).session
  gives : GivesUp p.lane (if failing = true then [q] else []) t u
  stream : (u.lane p.lane).stream =
    if failing = true then ({ t.lane p.lane with slots := (u.lane p.lane).slots } : LaneState).handedStream
    else (t.lane p.lane).stream
  credit : ((u.lane p.lane).credit, (u.lane p.lane).creditWaiting) =
    if failing = true ∧ q.dir = .write then
      (t.creditStep p.lane ((t.area (t.agent p.lane).area).writeOccupied, (t.lane p.lane).credit,
        (t.lane p.lane).creditWaiting) q).2
    else ((t.lane p.lane).credit, (t.lane p.lane).creditWaiting)
  xlat : u.xlat = t.xlat ∨ u.xlat = (dropWaiters p.lane p.tag t).xlat
  unwaited : failing = true → u.Unwaited p.lane p.tag
  timebase : u.timebase = t.timebase

/-- A waiter that fails. -/
theorem failWaiter_step {p : PieceRef} {q : Slot} {st : RespStatus} {t : State} (found : t.waiterSlot p = some q)
    (noData : st.carriesData = false) : WaiterStep p q (q.failedBy st p) true t (failWaiter st p t) := by
  let fail : Piece → Piece := fun y => { y with xlat := .failed }
  have found' : (failPiece p t).slot? p.lane p.tag = some (q.modifyPiece p fail) := slot?_updPiece fail found
  have all : ∀ u ∈ (q.modifyPiece p fail).held, givesBack (q.modifyPiece p fail).dir st u = true :=
    fun u _ => givesBack_of_all (.inr noData) u
  have lane : (failPiece p t).lane p.lane = (t.lane p.lane).updSlot p.tag fun x => x.modifyPiece p fail :=
    updSlot_lane_self t p.lane p.tag _
  obtain ⟨slots, session, _, _, _, _, _, stream⟩ := completeSlot_lane st found'
  obtain ⟨_, _, _, _, _, xlat, _, _⟩ := completeSlot_rest st found'
  have credit := completeSlot_credit st found'
  have slots : ((failWaiter st p t).lane p.lane).slots =
      ((t.lane p.lane).updSlot p.tag fun x => (x.modifyPiece p fail).completed q.dir st).slots := by
    refine slots.trans ?_
    rw [lane]
    exact congrArg LaneState.slots (updSlot_updSlot (t.lane p.lane) p.tag (f := fun x => x.modifyPiece p fail)
      (g := fun x => x.completed q.dir st) fun _ => rfl)
  exact
    { slot := ⟨fun x => (x.modifyPiece p fail).completed q.dir st, fun _ => rfl, by
        show { q.failedBy st p with held := q.held.filter fun u => !givesBack q.dir st u } = _
        rw [List.filter_eq_nil_iff.2 fun u hu => by rw [givesBack_of_all (.inr noData) u]; decide]
        rfl, slots⟩
      session := by rw [lane] at session; exact session
      gives := ((GivesUp.updLane t p.lane _).nil_trans (GivesUp.completeSlot found' all)).congr rfl rfl
      stream := by
        rw [lane] at stream
        exact stream
      credit := by
        have back : (q.modifyPiece p fail).givenBack st = q.held := List.filter_eq_self.2 all
        rw [back, lane] at credit
        cases dir : q.dir with
        | read =>
          obtain ⟨same, waiting⟩ := credit.2 (.inl dir)
          rw [if_neg (by simp)]
          exact Prod.ext same waiting
        | write =>
          rw [if_pos ⟨rfl, rfl⟩]
          rw [show (q.modifyPiece p fail).dir = .write from dir] at credit
          unfold State.creditStep
          dsimp only
          split
          · rename_i due
            obtain ⟨same, waiting⟩ := credit.1 rfl due
            exact Prod.ext same waiting
          · rename_i due
            obtain ⟨same, waiting⟩ := credit.2 (.inr due)
            exact Prod.ext same waiting
      xlat := .inr xlat
      unwaited := fun _ => completeSlot_unwaited found'
      timebase := (completeSlot_inner _ _ _ _).timebase }

end Sys2Proof.Machine
end
section
/-! The waiters of a walk settled together (O44, O49). -/

namespace Sys2Proof.Machine

/-! ### The head of a list whose slots become COMPLETE one after another (R35) -/

/-- One lane's part of `State.headsAnswered`. -/
def LaneState.HeadAnswered (r t : LaneState) (gone : List Slot) : Prop :=
  (∀ h, r.slots.head? = some h → h ∈ gone → r.noAnswer → t.stream = r.stream ++ [.answer h.tag])
    ∧ ((∀ h, r.slots.head? = some h → h ∉ gone ∧ h.stage ≠ .complete) ∨ ¬r.noAnswer → t.stream = r.stream)

/-- Lists of the same tags have the same head, found under its tag. -/
theorem head?_of_tags {r t : LaneState} {h : Slot} (tags : t.tags = r.tags) (head : r.slots.head? = some h) :
    ∃ h', t.slots.head? = some h' ∧ t.slot? h.tag = some h' := by
  obtain ⟨qs, slots⟩ := List.head?_eq_some_iff.1 head
  unfold LaneState.tags at tags
  rw [slots] at tags
  cases slots' : t.slots with
  | nil => rw [slots'] at tags; cases tags
  | cons h' qs' =>
    rw [slots', List.map_cons, List.map_cons] at tags
    have same : h'.tag = h.tag := (List.cons.inj tags).1
    exact ⟨h', rfl, same ▸ slot?_of_head slots'⟩

/-- A slot of the lane becomes COMPLETE, and the head is answered. -/
theorem LaneState.HeadAnswered.concat {r t u : LaneState} {gone : List Slot} {q q' : Slot} (before : r.HeadAnswered t gone)
    (tags : u.tags = r.tags) (own : u.slot? q.tag = some q') (complete : q'.stage = .complete) (open_ : q.stage ≠ .complete)
    (others : ∀ h, r.slots.head? = some h → h ≠ q → h ∉ gone → h.stage ≠ .complete →
      ∃ h', u.slot? h.tag = some h' ∧ h'.stage ≠ .complete)
    (stream : u.stream = ({ t with slots := u.slots } : LaneState).handedStream) : r.HeadAnswered u (gone ++ [q]) := by
  obtain ⟨answered, settled⟩ := before
  refine ⟨fun h head mem free => ?_, fun quiet => ?_⟩
  · by_cases already : h ∈ gone
    · have done := answered h head already free
      rw [stream, ← done]
      refine handedStream_of_handed (r := { t with slots := u.slots }) ?_
      rw [LaneState.answerHanded, done]
      simp
    · obtain rfl : h = q := by simpa [already] using mem
      have same := settled (.inl fun h' head' => Option.some.inj (head'.symm.trans head) ▸ ⟨already, open_⟩)
      obtain ⟨x, first, found⟩ := head?_of_tags tags head
      obtain rfl : x = q' := Option.some.inj (found.symm.trans own)
      rw [stream, handedStream_of_due (r := { t with slots := u.slots }) first complete
        (fun tag => by rw [same]; exact free tag)]
      rw [same, slot?_tag own]
  · rcases quiet with waiting | handed
    · have same := settled (.inl fun h head => ⟨fun m => (waiting h head).1 (List.mem_append_left _ m), (waiting h head).2⟩)
      rw [stream, ← same]
      refine handedStream_of_not_due (r := { t with slots := u.slots }) fun x first => ?_
      obtain ⟨h, head, _⟩ := head?_of_tags tags.symm first
      obtain ⟨notGone, notComplete⟩ := waiting h head
      rw [List.mem_append, List.mem_singleton, not_or] at notGone
      obtain ⟨h', found, stage⟩ := others h head notGone.2 notGone.1 notComplete
      obtain ⟨y, first', found'⟩ := head?_of_tags tags head
      rw [Option.some.inj (first.symm.trans first'), ← Option.some.inj (found.symm.trans found')]
      exact stage
    · have same := settled (.inr handed)
      rw [stream, ← same]
      exact handedStream_of_handed (r := { t with slots := u.slots })
        (answerHanded_of_answer (r := { t with slots := u.slots }) fun free => handed fun tag => by rw [← same]; exact free tag)

/-! ### What the waiters have changed together -/

/-- These waiters have been settled, one after another: the slot of each is `after`, and those that `fails` picks have failed. -/
structure WaitersDone (fails : Slot → Bool) (after : PieceRef → Slot → Slot) (s : State) (ws : List PieceRef) (t : State) :
    Prop where
  tags : ∀ l, (t.lane l).tags = (s.lane l).tags
  session : ∀ l, (t.lane l).session = (s.lane l).session
  slot : ∀ p ∈ ws, ∀ q, s.waiterSlot p = some q → t.waiterSlot p = some (after p q)
  others : ∀ l tag, (∀ p ∈ ws, ¬(p.lane = l ∧ p.tag = tag)) → (t.lane l).slot? tag = (s.lane l).slot? tag
  areas : ∀ a, t.area a = (s.area a).without (s.goneIn fails ws a)
  credit : ∀ l, s.aloneInArea l →
    ((t.lane l).credit, (t.lane l).creditWaiting) = s.creditAfter l (s.gone fails ws l)
  heads : ∀ l, (s.lane l).HeadAnswered (t.lane l) (s.gone fails ws l)
  unwaited : ∀ p ∈ ws, ∀ q, s.waiterSlot p = some q → fails q = true → t.Unwaited p.lane p.tag
  mgmt : t.mgmt = s.mgmt
  faults : t.faults = s.faults
  link : t.link = s.link
  agents : t.agents = s.agents
  classes : t.classes = s.classes
  port : t.port = s.port
  timebase : t.timebase = s.timebase
  cache : t.xlat.cache = s.xlat.cache
  nextAge : t.xlat.nextAge = s.xlat.nextAge
  walks : ∀ v, t.walk v = none ↔ s.walk v = none
  waiting : (∀ e ∈ s.xlat.waiting, e.waiters ≠ [] ∧ ∀ p ∈ e.waiters, ∀ x ∈ ws, ¬(p.lane = x.lane ∧ p.tag = x.tag)) →
    t.xlat.waiting = s.xlat.waiting

theorem WaitersDone.nil (fails : Slot → Bool) (after : PieceRef → Slot → Slot) (s : State) :
    WaitersDone fails after s [] s where
  tags _ := rfl
  session _ := rfl
  slot := nofun
  others _ _ _ := rfl
  areas _ := rfl
  credit _ _ := rfl
  heads _ := ⟨nofun, fun _ => rfl⟩
  unwaited := nofun
  mgmt := rfl
  faults := rfl
  link := rfl
  agents := rfl
  classes := rfl
  port := rfl
  timebase := rfl
  cache := rfl
  nextAge := rfl
  walks _ := Iff.rfl
  waiting _ := rfl

/-- Waiters withdrawn from entries that hold none of theirs. -/
theorem dropWaiters_waiting {l : Lane} {tag : Tag} {s : State}
    (h : ∀ e ∈ s.xlat.waiting, e.waiters ≠ [] ∧ ∀ p ∈ e.waiters, ¬(p.lane = l ∧ p.tag = tag)) :
    (dropWaiters l tag s).xlat.waiting = s.xlat.waiting := by
  have unchanged : (s.xlat.waiting.map fun x => { x with waiters := withoutSlot l tag x.waiters }) = s.xlat.waiting :=
    (List.map_congr_left fun e he => by rw [withoutSlot_of_none (h e he).2]).trans (List.map_id' _)
  show (List.map _ _).filter _ = _
  rw [unchanged]
  exact List.filter_eq_self.2 fun e he => by simpa using (h e he).1

theorem creditStep_congr {s t : State} {l : Lane} (session : (t.lane l).session = (s.lane l).session)
    (agents : t.agents = s.agents) (row : (t.area (s.agent l).area).row = (s.area (s.agent l).area).row) :
    t.creditStep l = s.creditStep l := by
  have agent : t.agent l = s.agent l := by simp only [State.agent, agents]
  funext x q
  unfold State.creditStep
  rw [session, agent, row]

/-- One waiter more is settled. -/
theorem WaitersDone.concat {fails : Slot → Bool} {after : PieceRef → Slot → Slot} {s t u : State} {ws : List PieceRef}
    {p : PieceRef} {q : Slot} (done : WaitersDone fails after s ws t) (laws : TagLaw s)
    (found : s.waiterSlot p = some q) (translating : q.stage = .translating)
    (fresh : ∀ x ∈ ws, ¬(x.lane = p.lane ∧ x.tag = p.tag))
    (passing : ∀ x ∈ ws, ∀ y, s.waiterSlot x = some y → fails y = false → (after x y).stage ≠ .complete)
    (complete : fails q = true → (after p q).stage = .complete)
    (step : WaiterStep p q (after p q) (fails q) t u) : WaitersDone fails after s (ws ++ [p]) u := by
  have agent : ∀ l, t.agent l = s.agent l := fun l => by simp only [State.agent, done.agents]
  have found' : t.waiterSlot p = some q :=
    (done.others p.lane p.tag fun x hx same => fresh x hx same).trans found
  obtain ⟨f, keeps, fq, slots⟩ := step.slot
  have own : (u.lane p.lane).slot? p.tag = some (after p q) := by
    rw [slot?_congr slots, slot?_updSlot_self _ _ f keeps, show (t.lane p.lane).slot? p.tag = some q from found']
    exact congrArg some fq
  have other : ∀ l tag, ¬(p.lane = l ∧ p.tag = tag) → (u.lane l).slot? tag = (t.lane l).slot? tag := fun l tag apart => by
    by_cases e : l = p.lane
    · subst e
      rw [slot?_congr slots]
      exact slot?_updSlot_ne _ f keeps fun e => apart ⟨rfl, e.symm⟩
    · rw [step.gives.others l e]
  have tags : ∀ l, (u.lane l).tags = (s.lane l).tags := fun l => by
    by_cases e : l = p.lane
    · subst e
      refine (congrArg (List.map _) slots).trans ((updSlot_tags _ _ f keeps).trans (done.tags _))
    · rw [step.gives.others l e]
      exact done.tags l
  have gone := fun l => gone_concat (fails := fails) (ws := ws) found l
  exact
    { tags := tags
      session := fun l => by
        by_cases e : l = p.lane
        · subst e
          exact step.session.trans (done.session _)
        · rw [step.gives.others l e]
          exact done.session l
      slot := fun x hx y hy => by
        rcases List.mem_append.1 hx with before | last
        · refine (other x.lane x.tag fun same => fresh x before ⟨same.1.symm, same.2.symm⟩).trans ?_
          exact done.slot x before y hy
        · obtain rfl := List.mem_singleton.1 last
          obtain rfl : q = y := Option.some.inj (found.symm.trans hy)
          exact own
      others := fun l tag free => by
        rw [other l tag (free p (by simp))]
        exact done.others l tag fun x hx => free x (List.mem_append_left _ hx)
      areas := fun a => by
        rw [goneIn_concat found, area_without_append, ← done.areas a]
        by_cases e : (s.agent p.lane).area = a
        · subst e
          have area := step.gives.area
          rw [agent] at area
          rw [area]
          cases fails q <;> simp
        · rw [step.gives.areas a (by rw [agent]; exact Ne.symm e), if_neg fun same => e same.1]
          rfl
      credit := fun l alone => by
        have before := done.credit l alone
        rw [gone l]
        by_cases e : p.lane = l
        · subst e
          have credit := step.credit
          rw [agent, creditStep_congr (done.session _) done.agents (by rw [done.areas]; rfl)] at credit
          have account : ((t.area (s.agent p.lane).area).writeOccupied, (t.lane p.lane).credit,
              (t.lane p.lane).creditWaiting) = s.creditFold p.lane (s.gone fails ws p.lane) := by
            refine Prod.ext ?_ (before.trans (creditAfter_eq ..))
            rw [creditFold_occupied, ← goneIn_of_alone alone ws, done.areas]
          rw [account] at credit
          rw [credit]
          cases failing : fails q with
          | false => simpa using before
          | true =>
            cases dir : q.dir with
            | read => simpa [creditAfter_eq, creditFold_concat_read dir] using before
            | write => simp [creditAfter_eq, creditFold_concat_write dir]
        · rw [step.gives.others l (Ne.symm e), if_neg fun same => e same.1, List.append_nil]
          exact before
      heads := fun l => by
        rw [gone l]
        by_cases e : p.lane = l
        · subst e
          have stream := step.stream
          cases failing : fails q with
          | false =>
            rw [failing, if_neg (by decide)] at stream
            rw [if_neg (by simp), List.append_nil]
            obtain ⟨answered, settled⟩ := done.heads p.lane
            exact ⟨fun h head mem free => stream.trans (answered h head mem free), fun quiet => stream.trans (settled quiet)⟩
          | true =>
            rw [failing, if_pos rfl] at stream
            rw [if_pos ⟨rfl, rfl⟩]
            have tagged : q.tag = p.tag := slot?_tag found
            refine LaneState.HeadAnswered.concat (done.heads p.lane) (tags _) (by rw [tagged]; exact own) (complete failing)
              (by rw [translating]; decide) (fun h head apart notGone notComplete => ?_) stream
            have mem : h ∈ (s.lane p.lane).slots := List.mem_of_mem_head? head
            have first : (s.lane p.lane).slot? h.tag = some h := slot?_of_mem (laws _) mem
            rw [other p.lane h.tag fun same => apart (Option.some.inj (first.symm.trans (same.2 ▸ found)))]
            by_cases waits : ∃ x ∈ ws, x.lane = p.lane ∧ x.tag = h.tag
            · obtain ⟨x, hx, lane, tag⟩ := waits
              have hfound : s.waiterSlot x = some h := by
                show (s.lane x.lane).slot? x.tag = _
                rw [lane, tag]
                exact first
              have passes : fails h = false := by
                rw [Bool.eq_false_iff]
                exact fun failed => notGone (lane ▸ mem_gone hx hfound failed)
              refine ⟨after x h, ?_, passing x hx h hfound passes⟩
              rw [← lane, ← tag]
              exact done.slot x hx h hfound
            · refine ⟨h, (done.others p.lane h.tag fun x hx same => waits ⟨x, hx, same⟩).trans first, notComplete⟩
        · rw [step.gives.others l (Ne.symm e), if_neg fun same => e same.1, List.append_nil]
          exact done.heads l
      unwaited := fun x hx y hy failing => by
        rcases List.mem_append.1 hx with before | last
        · exact step.gives.unwaited (done.unwaited x before y hy failing)
        · obtain rfl := List.mem_singleton.1 last
          obtain rfl : q = y := Option.some.inj (found.symm.trans hy)
          exact step.unwaited failing
      mgmt := step.gives.mgmt.trans done.mgmt
      faults := step.gives.faults.trans done.faults
      link := step.gives.link.trans done.link
      agents := step.gives.agents.trans done.agents
      classes := step.gives.classes.trans done.classes
      port := step.gives.port.trans done.port
      timebase := step.timebase.trans done.timebase
      cache := step.gives.cache.trans done.cache
      nextAge := by
        rcases step.xlat with same | dropped
        · rw [same]
          exact done.nextAge
        · rw [dropped]
          exact done.nextAge
      walks := fun v => by
        refine Iff.trans ?_ (done.walks v)
        rcases step.xlat with same | dropped
        · rw [walk_congr same]
        · rw [walk_congr dropped, dropWaiters_walk, Option.map_eq_none_iff]
      waiting := fun free => by
        have before := done.waiting fun e he => ⟨(free e he).1, fun y hy x hx => (free e he).2 y hy x (List.mem_append_left _ hx)⟩
        rcases step.xlat with same | dropped
        · rw [same]
          exact before
        · rw [dropped, dropWaiters_waiting, before]
          rw [before]
          exact fun e he => ⟨(free e he).1, fun y hy => (free e he).2 y hy p (by simp)⟩ }

end Sys2Proof.Machine
end
section
/-! The end of a walk (O44, O49): its waiters in turn, the next index of its slot, and the reports. -/

namespace Sys2Proof.Machine

theorem forEach_concat {α : Type} (xs : List α) (x : α) (f : α → State → State) (s : State) :
    forEach (xs ++ [x]) f s = f x (forEach xs f s) := by
  simp [forEach]

/-- The last of some waiters that stand: its slot, and the others of other slots. -/
theorem waitersStand_concat {s : State} {ws : List PieceRef} {p : PieceRef} (stand : s.waitersStand (ws ++ [p])) :
    s.waitersStand ws ∧ (∀ x ∈ ws, ¬(x.lane = p.lane ∧ x.tag = p.tag))
      ∧ ∃ q, s.waiterSlot p = some q ∧ q.stage = .translating := by
  obtain ⟨once, slots⟩ := stand
  rw [List.map_append, List.nodup_append] at once
  obtain ⟨before, _, apart⟩ := once
  refine ⟨⟨before, fun x hx => slots x (List.mem_append_left _ hx)⟩, fun x hx same => ?_, ?_⟩
  · exact apart (x.lane, x.tag) (List.mem_map.2 ⟨x, hx, rfl⟩) (p.lane, p.tag) (by simp) (Prod.ext same.1 same.2)
  · obtain ⟨q, _, found, translating, _⟩ := slots p (by simp)
    exact ⟨q, found, translating⟩

/-- Every waiter of a walk fails (R77 to R79). -/
theorem waitersDone_of_fail {st : RespStatus} (noData : st.carriesData = false) {s : State} (laws : TagLaw s)
    (ws : List PieceRef) (stand : s.waitersStand ws) :
    WaitersDone (fun _ => true) (fun p q => q.failedBy st p) s ws (forEach ws (failWaiter st) s) := by
  induction ws using List.reverseRecOn with
  | nil => exact WaitersDone.nil _ _ s
  | append_singleton ws p ih =>
    obtain ⟨before, fresh, q, found, translating⟩ := waitersStand_concat stand
    have done := ih before
    rw [forEach_concat]
    refine done.concat laws found translating fresh (fun _ _ _ _ h => by cases h) (fun _ => rfl)
      (failWaiter_step ?_ noData)
    exact (done.others p.lane p.tag fun x hx same => fresh x hx same).trans found

/-- A TRANSLATING slot whose piece has taken its address (R28, R65, R80). -/
def Slot.translatedBy (q : Slot) (p : PieceRef) (a : MemAddr) : Slot :=
  let pieces := q.pieces.modify p.place fun y => { y with xlat := .done, address := some a }
  { q with pieces := pieces, stage := if pieces.all fun y => y.xlat == .done then .queued else .translating }

/-- A waiter that its entry permits. -/
theorem translate_step {p : PieceRef} {q : Slot} {a : MemAddr} {t : State} (translating : q.stage = .translating) :
    WaiterStep p q (q.translatedBy p a) false t (queueIfDone p.lane p.tag (translatePiece p a t)) := by
  let take : Piece → Piece := fun y => { y with xlat := .done, address := some a }
  let queue : Slot → Slot := fun q =>
    if q.stage == .translating && q.pieces.all fun p => p.xlat == .done then { q with stage := .queued } else q
  have keeps : ∀ x, (queue x).tag = x.tag := fun x => by
    show (if _ then _ else x : Slot).tag = _
    split <;> rfl
  have lane : (queueIfDone p.lane p.tag (translatePiece p a t)).lane p.lane =
      (t.lane p.lane).updSlot p.tag fun x => queue (x.modifyPiece p take) := by
    show ((State.updSlot _ _ _ queue).lane p.lane) = _
    rw [updSlot_lane_self]
    show ((t.updSlot p.lane p.tag fun x => x.modifyPiece p take).lane p.lane).updSlot p.tag queue = _
    rw [updSlot_lane_self]
    exact updSlot_updSlot (t.lane p.lane) p.tag (f := fun x => x.modifyPiece p take) fun _ => rfl
  have slot : queue (q.modifyPiece p take) = q.translatedBy p a := by
    show (if (q.stage == .translating && (q.pieces.modify p.place take).all fun p => p.xlat == .done) then _ else _) = _
    rw [translating]
    unfold Slot.translatedBy
    dsimp only
    split
    · rename_i all
      have all : ((q.pieces.modify p.place take).all fun p => p.xlat == .done) = true := by simpa using all
      rw [if_pos all]
      rfl
    · rename_i some_
      have some_ : ¬((q.pieces.modify p.place take).all fun p => p.xlat == .done) = true := by simpa using some_
      rw [if_neg some_, ← translating]
      rfl
  have first : GivesUp p.lane [] t (translatePiece p a t) :=
    GivesUp.updLane t p.lane fun r => r.updSlot p.tag fun x => x.modifyPiece p take
  have second : GivesUp p.lane [] (translatePiece p a t) (queueIfDone p.lane p.tag (translatePiece p a t)) :=
    GivesUp.updLane (translatePiece p a t) p.lane fun r => r.updSlot p.tag queue
  exact
    { slot := ⟨fun x => queue (x.modifyPiece p take), fun x => keeps _, slot, congrArg LaneState.slots lane⟩
      session := by rw [lane]; rfl
      gives := first.trans second
      stream := by rw [lane]; rfl
      credit := by rw [lane]; rfl
      xlat := .inl rfl
      unwaited := nofun
      timebase := rfl }

/-- What an entry makes of a waiter's slot (R80). -/
def CacheEntry.settles (e : CacheEntry) (p : PieceRef) (q : Slot) : Slot :=
  if e.permits q.dir then q.translatedBy p (frameAddress e.frame (q.pagePosition p.upper)) else q.failedBy .denied p

/-- The reports of the waiters that an entry denies (R80). -/
def State.denials (s : State) (e : CacheEntry) (ws : List PieceRef) : List Report :=
  ws.filterMap fun p => (s.waiterSlot p).bind fun q =>
    if e.permits q.dir then none else some (deniedReport p.lane q (frameAddress e.frame (q.pagePosition p.upper)))

/-- The waiters of a walk checked against its entry, in their order (R80). -/
theorem waitersDone_of_check {e : CacheEntry} {s : State} (laws : TagLaw s) (ws : List PieceRef) (stand : s.waitersStand ws) :
    WaitersDone (fun q => !e.permits q.dir) e.settles s ws (checkWaiters e ws s).1
      ∧ (checkWaiters e ws s).2 = s.denials e ws := by
  induction ws using List.reverseRecOn with
  | nil => exact ⟨WaitersDone.nil _ _ s, rfl⟩
  | append_singleton ws p ih =>
    obtain ⟨before, fresh, q, found, translating⟩ := waitersStand_concat stand
    obtain ⟨done, reports⟩ := ih before
    have last : checkWaiters e (ws ++ [p]) s = checkWaiter e p (checkWaiters e ws s) := by simp [checkWaiters]
    have denials : s.denials e (ws ++ [p]) = s.denials e ws ++
        if e.permits q.dir then [] else [deniedReport p.lane q (frameAddress e.frame (q.pagePosition p.upper))] := by
      unfold State.denials
      rw [List.filterMap_append, List.filterMap_cons, List.filterMap_nil, found, Option.bind_some]
      split <;> rename_i h <;> split at h <;> simp_all
    rw [last, denials]
    generalize checkWaiters e ws s = k at *
    have found' : k.1.waiterSlot p = some q := (done.others p.lane p.tag fun x hx same => fresh x hx same).trans found
    have passing : ∀ x ∈ ws, ∀ y, s.waiterSlot x = some y → (!e.permits y.dir) = false →
        (e.settles x y).stage ≠ .complete := fun x _ y _ permits => by
      rw [CacheEntry.settles, if_pos (by simpa using permits)]
      show (if _ then _ else _ : Stage) ≠ _
      split <;> decide
    unfold checkWaiter
    rw [found']
    dsimp only
    cases permits : e.permits q.dir with
    | true =>
      refine ⟨done.concat laws found translating fresh passing (fun h => by rw [permits] at h; cases h) ?_, ?_⟩
      · rw [CacheEntry.settles, if_pos permits, permits]
        exact translate_step translating
      · simpa using reports
    | false =>
      refine ⟨done.concat laws found translating fresh passing (fun _ => ?_) ?_, ?_⟩
      · rw [CacheEntry.settles, permits]
        rfl
      · rw [CacheEntry.settles, permits]
        exact failWaiter_step found' rfl
      · simp [reports]

/-! ### The walk slot takes the next index, and the reports are taken -/

/-- A walk has ended: its waiters have been settled, its slot has taken the next index, and the reports have been taken. -/
structure WalkEnded (w : WalkNo) (fails : Slot → Bool) (after : PieceRef → Slot → Slot) (reps : List Report) (s : State)
    (ws : List PieceRef) (t : State) : Prop where
  tags : ∀ l, (t.lane l).tags = (s.lane l).tags
  slot : ∀ p ∈ ws, ∀ q, s.waiterSlot p = some q → t.waiterSlot p = some (after p q)
  others : ∀ l tag, (∀ p ∈ ws, ¬(p.lane = l ∧ p.tag = tag)) → (t.lane l).slot? tag = (s.lane l).slot? tag
  areas : ∀ a, t.area a = (s.area a).without (s.goneIn fails ws a)
  credit : ∀ l, s.aloneInArea l → (t.lane l).credit = (s.creditAfter l (s.gone fails ws l)).1
    ∧ (t.lane l).creditWaiting = (s.creditAfter l (s.gone fails ws l)).2
  heads : s.headsAnswered t (s.gone fails ws)
  unwaited : ∀ p ∈ ws, ∀ q, s.waiterSlot p = some q → fails q = true → t.noWaiterOf p.lane p.tag
  mgmt : t.mgmt = s.mgmt
  faults : t.faults = s.faultsAfter reps
  link : t.link = s.link
  classes : t.classes = s.classes
  port : t.port = s.port
  cache : t.xlat.cache = s.xlat.cache
  next : s.nextStands w ws → t.walk w = (s.xlat.nextIndex w).walks[w] ∧ t.xlat.waiting = (s.xlat.nextIndex w).waiting
    ∧ t.xlat.nextAge = (s.xlat.nextIndex w).nextAge

theorem WaitersDone.walkEnded {w : WalkNo} {fails : Slot → Bool} {after : PieceRef → Slot → Slot} {s t : State}
    {ws : List PieceRef} (done : WaitersDone fails after s ws t) (free : s.walk w = none) (reps : List Report) :
    WalkEnded w fails after reps s ws (reportAll reps (takeIndexes t)) := by
  obtain ⟨x, fields, cache, waiters⟩ := takeIndexes_fields t
  have reported := reportAll_after reps (takeIndexes t)
  have faults := reportAll_faults reps (takeIndexes t)
  have taken : s.nextStands w ws → takeIndexes t = { t with xlat := t.xlat.nextIndex w } := fun next =>
    takeIndexes_of_free ((done.walks w).2 free) (by
      rw [done.waiting next.2]
      exact next.1.imp id fun busy v hv => mt (done.walks v).1 (busy v hv))
  rw [fields] at reported faults taken ⊢
  generalize reportAll reps { t with xlat := x } = u at *
  have lane : ∀ l, ∃ x, u.lane l = { t.lane l with session := x } := reported.lane
  have slots : ∀ l, (u.lane l).slots = (t.lane l).slots := fun l => by
    obtain ⟨x, e⟩ := lane l
    rw [e]
  have slot? : ∀ l tag, (u.lane l).slot? tag = (t.lane l).slot? tag := fun l tag => slot?_congr (slots l) tag
  exact
    { tags := fun l => (congrArg (List.map _) (slots l)).trans (done.tags l)
      slot := fun p hp q hq => (slot? _ _).trans (done.slot p hp q hq)
      others := fun l tag free => (slot? _ _).trans (done.others l tag free)
      areas := fun a => by
        rw [← done.areas a]
        simp only [State.area, reported.areas]
      credit := fun l alone => by
        obtain ⟨x, e⟩ := lane l
        rw [e]
        exact Prod.mk.inj (done.credit l alone)
      heads := fun l => by
        obtain ⟨x, e⟩ := lane l
        rw [e]
        exact done.heads l
      unwaited := fun p hp q hq failing => noWaiterOf_iff.2 fun x hx => done.unwaited p hp q hq failing x (by
        rw [allWaiters_congr reported.xlat] at hx
        exact waiters.subset hx)
      mgmt := by rw [reported.mgmt, done.mgmt]
      faults := by
        rw [faults]
        unfold State.faultsAfter
        rw [done.faults, done.mgmt, done.timebase]
      link := by rw [reported.link, done.link]
      classes := by rw [reported.classes, done.classes]
      port := by rw [reported.port, done.port]
      cache := by rw [reported.xlat, cache, done.cache]
      next := fun next => by
        obtain ⟨walk, waiting, age⟩ := nextIndex_congr w (done.waiting next.2) done.nextAge
        have xlat : x = t.xlat.nextIndex w := congrArg State.xlat (taken next)
        rw [walk_congr reported.xlat, reported.xlat]
        subst xlat
        exact ⟨walk, waiting, age⟩ }

end Sys2Proof.Machine
end
section
/-! The grant of a READY walk slot (O44). -/

namespace Sys2Proof.Machine

theorem goneIn_of_all (s : State) (ws : List PieceRef) (a : Fin 16) : s.goneIn (fun _ => true) ws a =
    ws.filterMap fun p => if (s.agent p.lane).area = a then s.waiterSlot p else none := by
  unfold State.goneIn
  refine List.filterMap_congr fun p _ => ?_
  cases s.waiterSlot p <;> rfl

theorem gone_of_all (s : State) (ws : List PieceRef) (l : Lane) : s.gone (fun _ => true) ws l =
    ws.filterMap fun p => if p.lane = l then (s.lane l).slot? p.tag else none := by
  unfold State.gone
  refine List.filterMap_congr fun p _ => ?_
  by_cases own : p.lane = l
  · subst own
    rw [if_pos rfl, if_pos rfl]
    show ((s.lane p.lane).slot? p.tag).filter _ = _
    cases (s.lane p.lane).slot? p.tag <;> rfl
  · rw [if_neg own, if_neg own]

/-- A walk slot made FREE takes the next index as the walk slot would have. -/
theorem nextIndex_setWalk (s : State) (w : WalkNo) : (s.setWalk w none).xlat.nextIndex w = s.xlat.nextIndex w := by
  unfold Translation.nextIndex
  show (match s.xlat.waiting with | [] => _ | e :: es => _) = _
  cases waiting : s.xlat.waiting <;> simp [State.setWalk, State.withXlat, waiting]

/-- The FREE id of the lowest number is taken where none is named (log 9). -/
theorem take_freeIds_of_lowest {s : State} {i : MemId} (free : s.memId i = .free) (lowest : ∀ j, j < i → s.memId j ≠ .free) :
    s.freeIds.take 1 = [i] := by
  have mem : i ∈ s.freeIds := List.mem_filter.2 ⟨List.mem_finRange i, isFree_iff.2 free⟩
  have sorted : s.freeIds.Pairwise (· < ·) := (List.pairwise_lt_finRange 16).filter _
  cases ids : s.freeIds with
  | nil => rw [ids] at mem; cases mem
  | cons j js =>
    rw [ids] at mem sorted
    have own : s.memId j = .free :=
      isFree_iff.1 (List.mem_filter.1 (show j ∈ s.freeIds by rw [ids]; exact List.mem_cons_self ..)).2
    rcases List.mem_cons.1 mem with rfl | later
    · rfl
    · exact absurd own (lowest j ((List.pairwise_cons.1 sorted).1 i later))

/-- A READY walk slot is granted ahead of every lane where its ids are FREE (R129). -/
theorem grant_of_walkFirst {s : State} {w : WalkNo} {x : Walk} (ids : List MemId) (first : s.walkFirst w x) : grant ids s =
    if s.walkNeeds x ≤ s.freeIds.length then grantWalk w x (s.pickIds ids (s.walkNeeds x)) s else s := by
  unfold grant
  rw [readyWalk_of_walkFirst first]

/-- The grant of a READY walk slot with its index beyond the entry count (R77). -/
theorem grant_of_beyond {s : State} {w : WalkNo} {x : Walk} (ids : List MemId) (first : s.walkFirst w x)
    (beyond : s.portRow.entryCount ≤ x.index) : grant ids s =
      restartProgress (reportAll (firstWaiterReport .tableRange x.waiters s) (failWalk w x.waiters s)) := by
  have needs : s.walkNeeds x = 0 := if_neg (Nat.not_lt.2 beyond)
  rw [grant_of_walkFirst ids first, needs, if_pos (Nat.zero_le _)]
  exact if_neg (Nat.not_lt.2 beyond)

/-- The grant of a READY walk slot that issues its read under an id (R77). -/
theorem grant_of_read {s : State} {w : WalkNo} {x : Walk} {ids : List MemId} {i : MemId} (first : s.walkFirst w x)
    (inside : x.index < s.portRow.entryCount) (some_ : 0 < s.freeIds.length) (picked : s.pickIds ids 1 = [i]) : grant ids s =
      (s.setWalk w (some { x with reading := true })).setId i
        (.inUse (.walk w) s.portRow.timeout ⟨.read, s.portRow.entryAddress x.index, [0xFF], []⟩) := by
  have needs : s.walkNeeds x = 1 := if_pos inside
  rw [grant_of_walkFirst ids first, needs, if_pos (Nat.succ_le_of_lt some_), picked]
  exact if_pos inside

theorem failWalk_nil {s : State} {w : WalkNo} (next : s.nextStands w []) :
    failWalk w [] s = { s with xlat := s.xlat.nextIndex w } := by
  have busy : s.xlat.waiting = [] ∨ ∀ v, v ≠ w → (s.setWalk w none).walk v ≠ none :=
    next.1.imp id fun busy v hv => by rw [setWalk_walk_ne s none hv]; exact busy v hv
  show takeIndexes (s.setWalk w none) = _
  rw [takeIndexes_of_free (setWalk_walk_self s w none) busy, nextIndex_setWalk]
  rfl

/-- The walk of waiters that stand, ended with TRANSLATION_FAULT for all of them. -/
theorem failWalk_ended {s : State} {w : WalkNo} {ws : List PieceRef} (stand : s.waitersStand ws) (laws : TagLaw s)
    (reps : List Report) : WalkEnded w (fun _ => true) (fun p q => q.failedBy .translationFault p) reps (s.setWalk w none) ws
      (reportAll reps (failWalk w ws s)) :=
  (waitersDone_of_fail (s := s.setWalk w none) rfl laws ws stand).walkEnded (setWalk_walk_self s w none) reps

/-- The taking of the next index, seen from before the walk slot was FREE. -/
theorem nextStands_setWalk {s : State} {w : WalkNo} {ws : List PieceRef} (h : s.nextStands w ws) :
    (s.setWalk w none).nextStands w ws :=
  ⟨h.1.imp id fun busy v hv => by rw [setWalk_walk_ne s none hv]; exact busy v hv, h.2⟩

end Sys2Proof.Machine

open Sys2Proof Sys2Proof.Machine in
/-- Settles O44: the walk read is issued, or the walk ends with its waiters failing in turn. -/
theorem walksAreGrantedFirst : Obligations.WalksAreGrantedFirst := by
  intro w x ids s read gone
  refine ⟨fun first inside => ⟨fun i free => ?_, fun i free lowest => ?_, fun none_ => ?_⟩,
    fun first beyond stage => ⟨fun empty next => ?_, fun stand laws => ?_⟩, fun ready none_ => ?_⟩
  · have some_ : 0 < s.freeIds.length := List.length_pos_of_mem
      (List.mem_filter.2 ⟨List.mem_finRange i, isFree_iff.2 free⟩ : i ∈ s.freeIds)
    exact congrArg Host.Outcome.next (grant_of_read first inside some_
      (pickIds_of_named rfl (List.nodup_singleton i) fun j hj => List.mem_singleton.1 hj ▸ free))
  · have lowest := take_freeIds_of_lowest free lowest
    have some_ : 0 < s.freeIds.length := List.length_pos_of_mem
      (List.mem_filter.2 ⟨List.mem_finRange i, isFree_iff.2 free⟩ : i ∈ s.freeIds)
    exact congrArg Host.Outcome.next (grant_of_read first inside some_
      ((pickIds_of_unnamed (n := 1) fun named => by cases named.1).trans lowest))
  · have needs : s.walkNeeds x = 1 := if_pos inside
    refine congrArg Host.Outcome.next ((grant_of_walkFirst ids first).trans (if_neg ?_))
    rw [needs, freeIds_eq_nil_iff.2 none_]
    decide
  · refine congrArg Host.Outcome.next ((grant_of_beyond ids first beyond).trans ?_)
    rw [empty, failWalk_nil next]
    exact restartProgress_of_none stage
  · have ended := failWalk_ended (w := w) stand laws (firstWaiterReport .tableRange x.waiters s)
    have ran : exec (.grant ids) s = .next (reportAll (firstWaiterReport .tableRange x.waiters s) (failWalk w x.waiters s)) :=
      congrArg Host.Outcome.next ((grant_of_beyond ids first beyond).trans
        (restartProgress_of_none (by rw [ended.mgmt]; exact stage)))
    have goneEq : (s.setWalk w none).gone (fun _ => true) x.waiters = gone := funext fun l => gone_of_all (s.setWalk w none) x.waiters l
    have heads := ended.heads
    rw [goneEq] at heads
    refine ⟨_, ran, ended.tags, ended.port, ended.classes, ended.link, ended.mgmt, ended.cache, fun p hp q hq =>
      ⟨ended.slot p hp q hq, ended.unwaited p hp q hq rfl⟩, ended.others, fun a => ?_, fun l alone => ?_, heads,
      fun empty => ?_, fun p ps q waiters hq => ?_, fun next => ?_⟩
    · rw [ended.areas a, goneIn_of_all]
      rfl
    · have credit := ended.credit l alone
      rw [goneEq] at credit
      exact credit
    · rw [ended.faults, empty]
      rfl
    · have tag : q.tag = p.tag := slot?_tag hq
      have reports : firstWaiterReport .tableRange x.waiters s = [requestReport .tableRange p.lane q] := by
        rw [waiters, firstWaiterReport, List.head?_cons]
        dsimp only
        rw [show s.waiterSlot p = some q from hq]
        rfl
      rw [ended.faults, reports, requestReport, tag]
      rfl
    · have taken := ended.next (nextStands_setWalk next)
      rw [nextIndex_setWalk] at taken
      exact taken
  · refine congrArg Host.Outcome.next ?_
    simp only [grant, readyWalk_eq_none ready, none_]
end
section
/-! What a walk read that ends leaves of the state (O49). -/

namespace Sys2Proof.Machine

/-- The state in which a walk read's outcome is settled: its id has its new state, and its walk slot is FREE. -/
def State.walkAnswered (s : State) (i : MemId) (id : IdState) (w : WalkNo) : State :=
  ((s.setId i id).useFree 1).setWalk w none

/-- Its entry is installed (R80). -/
def State.installing (s : State) (e : CacheEntry) : State := s.withXlat fun t => { t with cache := install e t.cache }

/-- The owner's part of a walk read's outcome, where the read is not stale. -/
theorem walkOutcome_eq {w : WalkNo} {x : Walk} {o : Outcome} {value : Beat} {address : MemAddr} {s : State}
    (walk : s.walk w = some x) (fresh : x.stale = false) : walkOutcome w o value address s =
      if !o.carriedOut then (failWalk w x.waiters s, [{ cause := .walkFailed, mem := some address }])
      else match entryOf x.index value with
        | none => (failWalk w x.waiters s, firstWaiterReport .entryInvalid x.waiters s)
        | some e =>
          (takeIndexes (checkWaiters e x.waiters ((s.setWalk w none).installing e)).1,
            (checkWaiters e x.waiters ((s.setWalk w none).installing e)).2) := by
  unfold walkOutcome
  rw [walk]
  dsimp only
  rw [fresh]
  rfl

/-- A walk read's outcome, as its event brings it. -/
theorem endTransaction_walk (i : MemId) (id : IdState) (w : WalkNo) (o : Outcome) (txn : Transaction) (beats : List Beat)
    (s : State) : endTransaction i id (.walk w) o txn beats s =
      let k := walkOutcome w o (walkBeat beats (s.setId i id)) txn.address ((s.setId i id).useFree 1)
      restartProgress (reportAll (outcomeReport (.walk w) txn.address o ++ k.2) k.1) := rfl

/-- What O49 says of the state after a walk read's outcome. -/
structure WalkSettled (i : MemId) (id : IdState) (w : WalkNo) (fails : Slot → Bool) (after : PieceRef → Slot → Slot)
    (cache : List CacheEntry) (reps : List Report) (s : State) (ws : List PieceRef) (t : State) : Prop where
  tags : ∀ l, (t.lane l).tags = (s.lane l).tags
  own : t.memId i = id
  ids : ∀ j, j ≠ i → t.memId j = s.memId j
  cache : t.xlat.cache = cache
  faults : t.faults = s.faultsAfter reps
  others : ∀ l tag, (∀ p ∈ ws, ¬(p.lane = l ∧ p.tag = tag)) → (t.lane l).slot? tag = (s.lane l).slot? tag
  areas : ∀ a, t.area a = (s.area a).without (s.goneIn fails ws a)
  credit : ∀ l, s.aloneInArea l → (t.lane l).credit = (s.creditAfter l (s.gone fails ws l)).1
    ∧ (t.lane l).creditWaiting = (s.creditAfter l (s.gone fails ws l)).2
  heads : s.headsAnswered t (s.gone fails ws)
  next : s.nextStands w ws → t.walk w = (s.xlat.nextIndex w).walks[w] ∧ t.xlat.waiting = (s.xlat.nextIndex w).waiting
  classes : t.classes = s.classes
  link : t.link = s.link
  mgmt : t.mgmt = s.mgmt
  slot : ∀ p ∈ ws, ∀ q, s.waiterSlot p = some q → t.waiterSlot p = some (after p q)
  unwaited : ∀ p ∈ ws, ∀ q, s.waiterSlot p = some q → fails q = true → t.noWaiterOf p.lane p.tag

/-- The end of a walk, seen from before its read's outcome has changed the port, the translation unit and the count of FREE ids. -/
theorem WalkEnded.settled {i : MemId} {id : IdState} {w : WalkNo} {fails : Slot → Bool} {after : PieceRef → Slot → Slot}
    {reps : List Report} {s t : State} {ws : List PieceRef} {P : MemoryPort} {X : Translation} {F : Nat}
    (ended : WalkEnded w fails after reps { s with port := P, xlat := X, freeCount := F } ws t)
    (port : P = (s.setId i id).port) (waiting : X.waiting = s.xlat.waiting)
    (age : X.nextAge = s.xlat.nextAge) (walks : ∀ v, v ≠ w → X.walks[v] = s.xlat.walks[v]) :
    WalkSettled i id w fails after X.cache reps s ws t := by
  have memId : ∀ j, t.memId j = (s.setId i id).memId j := fun j => by
    simp only [State.memId, ended.port, port]
  obtain ⟨tags, slot, others, areas, credit, heads, unwaited, mgmt, faults, link, classes, _, cache, taken⟩ := ended
  refine ⟨tags, (memId i).trans (setId_memId_self s i id), fun j hj => (memId j).trans (setId_memId_ne s id hj), cache, faults,
    others, areas, credit, heads, fun stands => ?_, classes, link, mgmt, slot, unwaited⟩
  obtain ⟨walk', waiting', _⟩ := taken ⟨stands.1.imp waiting.trans fun busy v hv free => busy v hv ((walks v hv).symm.trans free),
    fun e he => stands.2 e (waiting ▸ he)⟩
  obtain ⟨walk, same, _⟩ := nextIndex_congr w waiting age
  exact ⟨walk'.trans walk, waiting'.trans same⟩

/-- A walk read that ends with every waiter failing (R78, R79). -/
theorem endTransaction_failWalk {i : MemId} {id : IdState} {w : WalkNo} {x : Walk} {o : Outcome} {txn : Transaction}
    {beats : List Beat} {s : State} {reps : List Report} (laws : TagLaw s) (stand : s.waitersStand x.waiters)
    (stage : s.mgmt.stage = .none)
    (outcome : walkOutcome w o (walkBeat beats (s.setId i id)) txn.address ((s.setId i id).useFree 1) =
      (failWalk w x.waiters ((s.setId i id).useFree 1), reps)) :
    WalkSettled i id w (fun _ => true) (fun p q => q.failedBy .translationFault p) s.xlat.cache
      (outcomeReport (.walk w) txn.address o ++ reps) s x.waiters (endTransaction i id (.walk w) o txn beats s) := by
  have ended := failWalk_ended (s := (s.setId i id).useFree 1) (w := w) stand laws
    (outcomeReport (.walk w) txn.address o ++ reps)
  rw [endTransaction_walk, outcome]
  dsimp only
  rw [restartProgress_of_none (by rw [ended.mgmt]; exact stage)]
  exact ended.settled (s := s) rfl rfl rfl fun v hv => setWalk_walk_ne s none hv

/-- A walk read that ends with its waiters checked against its entry (R80). -/
theorem endTransaction_checkWaiters {i : MemId} {id : IdState} {w : WalkNo} {x : Walk} {o : Outcome} {txn : Transaction}
    {beats : List Beat} {s : State} {e : CacheEntry} (walk : s.walk w = some x) (fresh : x.stale = false) (laws : TagLaw s)
    (stand : s.waitersStand x.waiters) (stage : s.mgmt.stage = .none) (carried : o.carriedOut = true)
    (entry : entryOf x.index (walkBeat beats (s.setId i id)) = some e) :
    WalkSettled i id w (fun q => !e.permits q.dir) e.settles (install e s.xlat.cache)
      (outcomeReport (.walk w) txn.address o ++ s.denials e x.waiters) s x.waiters
      (endTransaction i id (.walk w) o txn beats s) := by
  have outcome := walkOutcome_eq (s := (s.setId i id).useFree 1) (o := o) (value := walkBeat beats (s.setId i id))
    (address := txn.address) walk fresh
  rw [carried, if_neg (by decide), entry] at outcome
  obtain ⟨done, reports⟩ := waitersDone_of_check (e := e) (s := (s.walkAnswered i id w).installing e) laws x.waiters stand
  have free : ((s.walkAnswered i id w).installing e).walk w = none := setWalk_walk_self ((s.setId i id).useFree 1) w none
  have ended := done.walkEnded free (outcomeReport (.walk w) txn.address o ++ s.denials e x.waiters)
  rw [endTransaction_walk, outcome]
  dsimp only
  rw [show (checkWaiters e x.waiters ((((s.setId i id).useFree 1).setWalk w none).installing e)).2 = s.denials e x.waiters
    from reports]
  show WalkSettled _ _ _ _ _ _ _ _ _ (restartProgress (reportAll _ (takeIndexes
    (checkWaiters e x.waiters ((s.walkAnswered i id w).installing e)).1)))
  rw [restartProgress_of_none (by rw [ended.mgmt]; exact stage)]
  exact ended.settled (s := s) rfl rfl rfl fun v hv => setWalk_walk_ne s none hv

end Sys2Proof.Machine
end
section
/-! The outcomes of a walk read: not carried out, with bit 0 clear, and with an entry to install (O49). -/

namespace Sys2Proof.Machine

/-- The response of an IN_USE id ends its transaction (R124). -/
theorem exec_memoryResponse_inUse {i : MemId} {s : State} {owner : Owner} {timer : Nat} {txn : Transaction}
    (used : s.memId i = .inUse owner timer txn) (st : MemStatus) (beats : List Beat) :
    exec (.memoryResponse i st beats) s = .next (endTransaction i .free owner (.response st) txn beats s) :=
  congrArg Host.Outcome.next (by unfold memoryResponse; rw [used])

/-- So does its timeout, and the id is QUARANTINED (R126). -/
theorem exec_responseTimeout_inUse {i : MemId} {s : State} {owner : Owner} {timer : Nat} {txn : Transaction}
    (used : s.memId i = .inUse owner timer txn) :
    exec (.responseTimeout i) s = .next (endTransaction i .quarantined owner .timeout txn [] s) :=
  congrArg Host.Outcome.next (by unfold responseTimeout; rw [used])

/-- A walk read that was not carried out (R79). -/
theorem endTransaction_walkFailed {i : MemId} {id : IdState} {w : WalkNo} {x : Walk} {o : Outcome} {txn : Transaction}
    (beats : List Beat) {s : State} {c : Cause} (walk : s.walk w = some x) (fresh : x.stale = false) (laws : TagLaw s)
    (stand : s.waitersStand x.waiters) (stage : s.mgmt.stage = .none) (fails : o.carriedOut = false)
    (cause : o.cause = some c) :
    WalkSettled i id w (fun _ => true) (fun p q => q.failedBy .translationFault p) s.xlat.cache
      [{ cause := c, mem := some txn.address }, { cause := .walkFailed, mem := some txn.address }] s x.waiters
      (endTransaction i id (.walk w) o txn beats s) := by
  have outcome := walkOutcome_eq (s := (s.setId i id).useFree 1) (o := o) (value := walkBeat beats (s.setId i id))
    (address := txn.address) walk fresh
  rw [fails, if_pos (by decide)] at outcome
  have own : outcomeReport (.walk w) txn.address o = [{ cause := c, mem := some txn.address }] := by
    rw [outcomeReport, cause]
  have settled := endTransaction_failWalk (txn := txn) laws stand stage outcome
  rwa [own] at settled

/-- A walk read of an entry whose bit 0 is clear (R79). -/
theorem endTransaction_entryInvalid {i : MemId} {id : IdState} {w : WalkNo} {x : Walk} {o : Outcome} {txn : Transaction}
    {beats : List Beat} {s : State} (walk : s.walk w = some x) (fresh : x.stale = false) (laws : TagLaw s)
    (stand : s.waitersStand x.waiters) (stage : s.mgmt.stage = .none) (carried : o.carriedOut = true)
    (entry : entryOf x.index (walkBeat beats (s.setId i id)) = none) :
    WalkSettled i id w (fun _ => true) (fun p q => q.failedBy .translationFault p) s.xlat.cache
      (outcomeReport (.walk w) txn.address o ++ firstWaiterReport .entryInvalid x.waiters s) s x.waiters
      (endTransaction i id (.walk w) o txn beats s) := by
  have outcome := walkOutcome_eq (s := (s.setId i id).useFree 1) (o := o) (value := walkBeat beats (s.setId i id))
    (address := txn.address) walk fresh
  rw [carried, if_neg (by decide), entry] at outcome
  exact endTransaction_failWalk laws stand stage outcome

/-- The reports of the denied waiters, named by the tags of the waiters themselves. -/
theorem denials_eq (s : State) (e : CacheEntry) (ws : List PieceRef) : s.denials e ws = ws.filterMap fun p =>
    ((s.lane p.lane).slot? p.tag).bind fun q =>
      if e.permits q.dir then none
      else some { cause := .entryDenied, lane := some p.lane, tag := some p.tag, link := some q.address
                  mem := some (frameAddress e.frame (q.pagePosition p.upper)) } := by
  refine List.filterMap_congr fun p _ => ?_
  show ((s.lane p.lane).slot? p.tag).bind _ = _
  cases found : (s.lane p.lane).slot? p.tag with
  | none => rfl
  | some q =>
    have tag : q.tag = p.tag := slot?_tag found
    simp only [Option.bind_some, deniedReport, requestReport, tag]

/-- The report of the first waiter, named by its own tag. -/
theorem firstWaiterReport_cons (c : Cause) (p : PieceRef) (ps : List PieceRef) (s : State) :
    firstWaiterReport c (p :: ps) s = (((s.lane p.lane).slot? p.tag).map fun q =>
      ({ cause := c, lane := some p.lane, tag := some p.tag, link := some q.address } : Report)).toList := by
  show (((s.lane p.lane).slot? p.tag).map _).toList = _
  cases found : (s.lane p.lane).slot? p.tag with
  | none => rfl
  | some q =>
    have tag : q.tag = p.tag := slot?_tag found
    simp only [Option.map_some, requestReport, tag]

theorem settles_of_permits {e : CacheEntry} {q : Slot} (h : e.permits q.dir = true) (p : PieceRef) :
    e.settles p q = q.translatedBy p (frameAddress e.frame (q.pagePosition p.upper)) := if_pos h

theorem settles_of_denies {e : CacheEntry} {q : Slot} (h : e.permits q.dir = false) (p : PieceRef) :
    e.settles p q = q.failedBy .denied p := if_neg (by rw [h]; decide)

end Sys2Proof.Machine

open Sys2Proof Sys2Proof.Machine in
/-- Settles O49: the waiters of a walk end together, checked against the entry that its read brought or failing with it. -/
theorem waitersAreSettledByTheirWalk : Obligations.WaitersAreSettledByTheirWalk := by
  intro i w x beat more timer txn s bit frame entry address permits slotOf named port changed failed gone settled firstNamed
    used walk reading fresh stand stage laws
  have of_settled : ∀ c id fails after cache reps t, exec c s = .next t →
      WalkSettled i id w fails after cache reps s x.waiters t → settled c id fails cache reps t :=
    fun c id fails after cache reps t ran h => ⟨ran, h.tags, h.own, h.ids, h.cache, h.faults, h.others, h.areas, h.credit,
      h.heads, h.next, h.classes, h.link, h.mgmt⟩
  have of_failing : ∀ c id cache reps t, exec c s = .next t →
      WalkSettled i id w (fun _ => true) (fun p q => q.failedBy .translationFault p) cache reps s x.waiters t →
      settled c id (fun _ => true) cache reps t
        ∧ ∀ p ∈ x.waiters, ∀ q, slotOf p = some q → failed t .translationFault p q :=
    fun c id cache reps t ran h =>
      ⟨of_settled c id _ _ cache reps t ran h, fun p hp q hq => ⟨h.slot p hp q hq, h.unwaited p hp q hq rfl⟩⟩
  refine ⟨fun st own hst => ?_, fun c id own hc => ?_⟩
  · have ran := exec_memoryResponse_inUse used st (beat :: more)
    have outcome : (Outcome.response st).carriedOut = true ∧ outcomeReport (.walk w) txn.address (.response st) = own := by
      rcases List.mem_cons.1 hst with same | hst
      · cases same; exact ⟨rfl, rfl⟩
      · cases List.mem_singleton.1 hst; exact ⟨rfl, rfl⟩
    obtain ⟨carried, rfl⟩ := outcome
    refine ⟨fun valid => ?_, fun clear => ?_⟩
    · have brought : entryOf x.index (walkBeat (beat :: more) (s.setId i .free)) = some entry := if_pos valid
      have ended := endTransaction_checkWaiters (txn := txn) walk fresh laws stand stage carried brought
      have permits_eq : ∀ q : Slot, entry.permits q.dir = permits q := fun q => by
        show CacheEntry.permits _ q.dir = (match q.dir with | .read => bit 1 | .write => bit 2)
        cases q.dir <;> rfl
      have fails_eq : (fun q : Slot => !entry.permits q.dir) = fun q => !permits q :=
        funext fun q => congrArg _ (permits_eq q)
      rw [fails_eq, denials_eq] at ended
      simp only [permits_eq] at ended
      refine ⟨_, of_settled _ _ _ _ _ _ _ ran ended, fun p hp q hq => ⟨fun allowed => ?_, fun denied => ⟨?_, ?_⟩⟩⟩
      · exact (ended.slot p hp q hq).trans (congrArg some (settles_of_permits ((permits_eq q).trans allowed) p))
      · exact (ended.slot p hp q hq).trans (congrArg some (settles_of_denies ((permits_eq q).trans denied) p))
      · exact ended.unwaited p hp q hq (by rw [denied]; rfl)
    · have brought : entryOf x.index (walkBeat (beat :: more) (s.setId i .free)) = none :=
        if_neg fun valid => Bool.false_ne_true (clear.symm.trans valid)
      have ended := endTransaction_entryInvalid (txn := txn) walk fresh laws stand stage carried brought
      have named_eq : firstWaiterReport .entryInvalid x.waiters s = firstNamed := by
        show _ = (match x.waiters with | [] => [] | p :: _ => ((slotOf p).map (named .entryInvalid p)).toList)
        cases x.waiters with
        | nil => rfl
        | cons p ps => exact firstWaiterReport_cons .entryInvalid p ps s
      rw [named_eq] at ended
      exact ⟨_, of_failing _ _ _ _ _ ran ended⟩
  · have failing : ∀ {c id o beats}, o.carriedOut = false → o.cause = some own →
        exec c s = .next (endTransaction i id (.walk w) o txn beats s) →
        ∃ t, settled c id (fun _ => true) s.xlat.cache [port own, port .walkFailed] t
          ∧ ∀ p ∈ x.waiters, ∀ q, slotOf p = some q → failed t .translationFault p q := fun fails cause ran =>
      ⟨_, of_failing _ _ _ _ _ ran (endTransaction_walkFailed _ walk fresh laws stand stage fails cause)⟩
    simp only [List.mem_cons, Prod.mk.injEq, List.not_mem_nil, or_false] at hc
    rcases hc with ⟨rfl, rfl, rfl⟩ | ⟨rfl, rfl, rfl⟩ | ⟨rfl, rfl, rfl⟩
    · exact failing rfl rfl (exec_memoryResponse_inUse used .failed (beat :: more))
    · exact failing rfl rfl (exec_memoryResponse_inUse used .noTarget (beat :: more))
    · exact failing rfl rfl (exec_responseTimeout_inUse used)
end
section
/-! A piece's index in the translation unit (R73, R76): where it joins, and that it stays awaited while indexes are taken (O39). -/

namespace Sys2Proof.Machine

/-- A walk slot holds an index. -/
def Translation.holds (x : Translation) (index : Nat) (w : WalkNo) : Bool := x.walks[w].any fun y => y.index == index

/-- The walk slot of the lowest number that holds an index. -/
def Translation.holder (x : Translation) (index : Nat) : Option WalkNo := allWalks.find? (x.holds index)

/-- What a piece's joining makes of the translation unit (R73). -/
def Translation.joined (x : Translation) (index : Nat) (p : PieceRef) : Translation :=
  match x.holder index with
  | some w => { x with walks := x.walks.set w (x.walks[w].map fun y => { y with waiters := y.waiters ++ [p] }) }
  | none =>
    if x.waiting.any fun y => y.index == index then
      { x with waiting := x.waiting.map fun y => if y.index == index then { y with waiters := y.waiters ++ [p] } else y }
    else { x with waiting := x.waiting ++ [⟨index, [p]⟩] }

theorem joinWaiters_eq (index : Nat) (p : PieceRef) (s : State) :
    joinWaiters index p s = { s with xlat := s.xlat.joined index p } := by
  unfold joinWaiters Translation.joined
  show (match s.xlat.holder index with | some w => _ | none => _) = _
  cases s.xlat.holder index <;> rfl

theorem holds_iff {x : Translation} {index : Nat} {w : WalkNo} :
    x.holds index w = true ↔ ∃ y, x.walks[w] = some y ∧ y.index = index := by
  unfold Translation.holds
  cases x.walks[w] with
  | none => simp
  | some y => simp

theorem holder_eq_some {x : Translation} {index : Nat} {w : WalkNo} (held : x.holds index w = true)
    (lowest : ∀ v, v < w → ¬x.holds index v = true) : x.holder index = some w := by
  show List.find? _ [0, 1] = _
  rcases walkNo_cases w with rfl | rfl
  · exact List.find?_cons_of_pos held
  · rw [List.find?_cons_of_neg (lowest 0 (by decide)), List.find?_cons_of_pos held]

theorem holder_eq_none {x : Translation} {index : Nat} : x.holder index = none ↔ ∀ w, ¬x.holds index w = true := by
  unfold Translation.holder
  rw [List.find?_eq_none]
  exact ⟨fun h w => h w (List.mem_finRange w), fun h w _ => h w⟩

/-- An index that a walk slot holds: the piece joins that slot's waiters. -/
theorem joined_of_held {x : Translation} {index : Nat} {w : WalkNo} {y : Walk} (p : PieceRef) (walk : x.walks[w] = some y)
    (holder : x.holder index = some w) :
    x.joined index p = { x with walks := x.walks.set w (some { y with waiters := y.waiters ++ [p] }) } := by
  unfold Translation.joined
  rw [holder]
  dsimp only
  rw [walk]
  rfl

/-- An index that one entry of the waiting list holds: the piece joins that entry's. -/
theorem joined_of_listed {x : Translation} {index : Nat} {before after : List WaitingIndex} {e : WaitingIndex}
    (p : PieceRef) (free : x.holder index = none) (waiting : x.waiting = before ++ e :: after) (own : e.index = index)
    (others : ∀ y ∈ before ++ after, y.index ≠ index) :
    x.joined index p = { x with waiting := before ++ { e with waiters := e.waiters ++ [p] } :: after } := by
  have same : ∀ ys : List WaitingIndex, (∀ y ∈ ys, y.index ≠ index) →
      (ys.map fun y => if y.index == index then { y with waiters := y.waiters ++ [p] } else y) = ys := fun ys other =>
    (List.map_congr_left fun y hy => if_neg (by simpa using other y hy)).trans (List.map_id' ys)
  have listed : (x.waiting.any fun y => y.index == index) = true := by
    rw [waiting]
    simp [own]
  unfold Translation.joined
  rw [free]
  dsimp only
  rw [if_pos listed, waiting, List.map_append, List.map_cons, same before fun y hy => others y (List.mem_append_left _ hy),
    same after fun y hy => others y (List.mem_append_right _ hy), if_pos (by simpa using own)]

/-- An index that nothing holds joins the tail of the waiting list. -/
theorem joined_of_new {x : Translation} {index : Nat} (p : PieceRef) (free : x.holder index = none)
    (unlisted : ∀ y ∈ x.waiting, y.index ≠ index) :
    x.joined index p = { x with waiting := x.waiting ++ [⟨index, [p]⟩] } := by
  unfold Translation.joined
  rw [free]
  exact if_neg (by simpa using unlisted)

theorem joined_cache (x : Translation) (index : Nat) (p : PieceRef) : (x.joined index p).cache = x.cache := by
  unfold Translation.joined
  split
  · rfl
  · split <;> rfl

/-! ### A piece that waits for an index -/

/-- A walk slot or an entry of the waiting list has this piece among the waiters of this index. -/
def Translation.Awaits (x : Translation) (index : Nat) (p : PieceRef) : Prop :=
  (∃ (w : WalkNo) (y : Walk), x.walks[w] = some y ∧ y.index = index ∧ p ∈ y.waiters)
    ∨ ∃ y ∈ x.waiting, y.index = index ∧ p ∈ y.waiters

theorem awaits_joined_self (x : Translation) (index : Nat) (p : PieceRef) : (x.joined index p).Awaits index p := by
  unfold Translation.joined
  split
  · rename_i w holder
    obtain ⟨y, walk, own⟩ := holds_iff.1 (List.find?_some holder)
    exact .inl ⟨w, { y with waiters := y.waiters ++ [p] }, by simp [walk], own, by simp⟩
  · split
    · rename_i listed
      obtain ⟨e, he, own⟩ := List.any_eq_true.1 listed
      exact .inr ⟨{ e with waiters := e.waiters ++ [p] }, List.mem_map.2 ⟨e, he, if_pos own⟩, by simpa using own, by simp⟩
    · exact .inr ⟨⟨index, [p]⟩, by simp, rfl, by simp⟩

/-- A further piece's joining withdraws nothing. -/
theorem Translation.Awaits.joined {x : Translation} {index : Nat} {p : PieceRef} (h : x.Awaits index p) (other : Nat)
    (q : PieceRef) : (x.joined other q).Awaits index p := by
  unfold Translation.joined
  split
  · rename_i w _
    rcases h with ⟨v, y, walk, own, waits⟩ | listed
    · by_cases e : v = w
      · subst e
        exact .inl ⟨v, { y with waiters := y.waiters ++ [q] }, by simp [walk], own, List.mem_append_left _ waits⟩
      · have ne : w.val ≠ v.val := fun g => e (Fin.ext g.symm)
        exact .inl ⟨v, y, by simpa [ne] using walk, own, waits⟩
    · exact .inr listed
  · split
    · rcases h with held | ⟨e, he, own, waits⟩
      · exact .inl held
      · refine .inr ⟨_, List.mem_map_of_mem he, ?_, ?_⟩
        · split <;> exact own
        · split
          · exact List.mem_append_left _ waits
          · exact waits
    · exact h.imp id fun ⟨e, he, rest⟩ => ⟨e, List.mem_append_left _ he, rest⟩

theorem awaits_takeIndex {s : State} {index : Nat} {p : PieceRef} (w : WalkNo) (h : s.xlat.Awaits index p) :
    (takeIndex w s).xlat.Awaits index p := by
  unfold takeIndex
  split
  · rename_i e rest free waiting
    rcases h with ⟨v, y, walk, own, waits⟩ | ⟨f, hf, own, waits⟩
    · have ne : w.val ≠ v.val := fun g => by
        have same : w = v := Fin.ext g
        rw [same] at free
        exact Option.some_ne_none y (walk.symm.trans free)
      exact .inl ⟨v, y, by simpa [State.withXlat, ne] using walk, own, waits⟩
    · rw [waiting] at hf
      rcases List.mem_cons.1 hf with rfl | hf
      · exact .inl ⟨w, _, by simp [State.withXlat]; rfl, own, waits⟩
      · exact .inr ⟨f, hf, own, waits⟩
  · exact h

theorem awaits_takeIndexes {s : State} {index : Nat} {p : PieceRef} (h : s.xlat.Awaits index p) :
    (takeIndexes s).xlat.Awaits index p :=
  awaits_takeIndex (s := takeIndex 0 s) 1 (awaits_takeIndex 0 h)

/-! ### Indexes taken at an acceptance (R76) -/

theorem takeIndexes_of_idle {s : State} (idle : s.xlat.waiting = [] ∨ ∀ w, s.walk w ≠ none) : takeIndexes s = s := by
  have each : ∀ w, takeIndex w s = s := fun w => takeIndex_of_idle (idle.symm.imp_left (· w))
  show takeIndex 1 (takeIndex 0 s) = s
  rw [each 0, each 1]

/-- The FREE walk slot of the lowest number takes the one index that waits. -/
theorem takeIndexes_of_one {s : State} {w : WalkNo} {e : WaitingIndex} (free : s.walk w = none)
    (lowest : ∀ v, v < w → s.walk v ≠ none) (waiting : s.xlat.waiting = [e]) :
    takeIndexes s = { s with xlat := s.xlat.nextIndex w } := by
  show takeIndex 1 (takeIndex 0 s) = _
  rcases walkNo_cases w with rfl | rfl
  · rw [takeIndex_of_free free]
    exact takeIndex_of_idle (.inr (by simp [Translation.nextIndex, waiting]))
  · rw [takeIndex_of_idle (.inl (lowest 0 (by decide))), takeIndex_of_free free]

/-- Two FREE walk slots take the two indexes that wait, the older in slot 0. -/
theorem takeIndexes_of_two {s : State} {e f : WaitingIndex} (free : ∀ w, s.walk w = none) (waiting : s.xlat.waiting = [e, f]) :
    (takeIndexes s).walk 0 = some ⟨false, e.index, e.waiters, false, s.xlat.nextAge⟩
      ∧ (takeIndexes s).walk 1 = some ⟨false, f.index, f.waiters, false, s.xlat.nextAge + 1⟩
      ∧ (takeIndexes s).xlat.waiting = [] := by
  have taken : takeIndexes s = { s with xlat := (s.xlat.nextIndex 0).nextIndex 1 } := by
    show takeIndex 1 (takeIndex 0 s) = _
    rw [takeIndex_of_free (free 0), takeIndex_of_free (w := 1)]
    have one := free 1
    simpa [Translation.nextIndex, waiting, State.walk] using one
  rw [taken]
  simp [Translation.nextIndex, waiting, State.walk]

end Sys2Proof.Machine
end
section
/-! The lookups of an accepted TRANSLATED request (O39): what each piece comes to, on the slot at the tail of its lane's list. -/

namespace Sys2Proof.Machine

/-! ### The enlisted slot -/

theorem enlist_withXlat (rq : Request) (d : Decoded) (s : State) (x : Translation) :
    { enlist rq d s with xlat := x } = enlist rq d { s with xlat := x } := by
  unfold enlist
  cases rq.dir <;> rfl

theorem enlist_portRow (rq : Request) (d : Decoded) (s : State) : (enlist rq d s).portRow = s.portRow := by
  unfold enlist
  cases rq.dir <;> rfl

/-- A lane's list, an area's counts and the storage change apart from one another. -/
theorem updSlot_updArea_withStaging (s : State) (l : Lane) (tag : Tag) (f : Slot → Slot) (a : Fin 16) (g : Area → Area)
    (m : Memory → Memory) :
    ((s.updArea a g).withStaging m).updSlot l tag f = ((s.updSlot l tag f).updArea a g).withStaging m := rfl

/-- A change of the slot at the tail, in either direction. -/
theorem updSlot_enlist {rq : Request} {d d' : Decoded} {f : Slot → Slot} {s : State}
    (fresh : ∀ q ∈ (s.lane rq.lane).slots, q.tag ≠ rq.tag)
    (becomes : ∀ number units, f (newSlot rq number d units) = newSlot rq number d' units) :
    (enlist rq d s).updSlot rq.lane rq.tag f = enlist rq d' s := by
  have tail : ∀ units, ((s.lane rq.lane).enlisted (newSlot rq (s.lane rq.lane).number d units)).updSlot rq.tag f =
      (s.lane rq.lane).enlisted (newSlot rq (s.lane rq.lane).number d' units) := fun units => by
    rw [← becomes]
    exact updSlot_enlisted (q := newSlot rq (s.lane rq.lane).number d units) fresh
  cases dir : rq.dir with
  | read =>
    rw [enlist_read dir, enlist_read dir]
    show State.updLane _ _ _ = _
    rw [updLane_eq_setLane, setLane_lane_self, setLane_setLane, tail]
  | write =>
    rw [enlist_write dir, enlist_write dir]
    rw [updSlot_updArea_withStaging]
    show ((State.updLane _ _ _).updArea _ _).withStaging _ = _
    rw [updLane_eq_setLane, setLane_lane_self, setLane_setLane]
    exact congrArg (fun r : LaneState => ((s.setLane rq.lane { r with
      credit := (s.lane rq.lane).credit - unitsFor rq.length }).updArea _ _).withStaging _)
      (tail (s.unitsOfWrite rq.lane rq.length))

/-- A change of one of its pieces. -/
theorem updPiece_enlist {rq : Request} {c : Capture} {ps : List Piece} {s : State} {upper : Bool} {p : Piece}
    (fresh : ∀ q ∈ (s.lane rq.lane).slots, q.tag ≠ rq.tag) (f : Piece → Piece)
    (piece : ps[(⟨rq.lane, rq.tag, upper⟩ : PieceRef).place]? = some p) :
    (enlist rq (.translated c ps) s).updPiece ⟨rq.lane, rq.tag, upper⟩ f =
      enlist rq (.translated c (ps.set (⟨rq.lane, rq.tag, upper⟩ : PieceRef).place (f p))) s := by
  have modified : ps.modify (⟨rq.lane, rq.tag, upper⟩ : PieceRef).place f =
      ps.set (⟨rq.lane, rq.tag, upper⟩ : PieceRef).place (f p) := by
    rw [List.modify_eq_set_getElem?, piece]
    rfl
  rw [updPiece_eq]
  refine updSlot_enlist fresh fun number units => ?_
  unfold Slot.modifyPiece newSlot
  dsimp only
  rw [modified]

/-! ### One lookup (R71 to R73) -/

/-- The report that names a request (R71). -/
def Request.names (rq : Request) (cause : Cause) : Report :=
  { cause := cause, lane := some rq.lane, tag := some rq.tag, link := some rq.address }

/-- The index that a piece looks up. -/
abbrev Piece.index (p : Piece) : Nat := p.entry.getD 0

/-- What a piece's lookup comes to: the piece, its failure, and the reports. -/
def State.looked (s : State) (rq : Request) (p : Piece) (position : Nat) : Piece × Option RespStatus × List Report :=
  match s.lookUp p.index with
  | .beyond => ({ p with xlat := .failed }, some .translationFault, [rq.names .tableRange])
  | .hit e =>
    if e.permits rq.dir then ({ p with xlat := .done, address := some (frameAddress e.frame position) }, none, [])
    else ({ p with xlat := .failed }, some .denied, [{ rq.names .entryDenied with mem := some (frameAddress e.frame position) }])
  | .miss => (p, none, [])

/-- The translation unit after it: a miss joins the waiters of its index. -/
def State.lookedIn (s : State) (x : Translation) (p : Piece) (ref : PieceRef) : Translation :=
  if s.lookUp p.index = .miss then x.joined p.index ref else x

theorem lookedIn_of_miss {s : State} {p : Piece} (miss : s.lookUp p.index = .miss) (x : Translation) (ref : PieceRef) :
    s.lookedIn x p ref = x.joined p.index ref := if_pos miss

theorem lookedIn_cache (s : State) (x : Translation) (p : Piece) (ref : PieceRef) : (s.lookedIn x p ref).cache = x.cache := by
  unfold State.lookedIn
  split
  · exact joined_cache x p.index ref
  · rfl

theorem Translation.Awaits.lookedIn {x : Translation} {index : Nat} {ref : PieceRef} (h : x.Awaits index ref) (s : State)
    (p : Piece) (other : PieceRef) : (s.lookedIn x p other).Awaits index ref := by
  unfold State.lookedIn
  split
  · exact h.joined p.index other
  · exact h

/-- A piece whose lookup does not fail it reports nothing. -/
theorem looked_reports {s : State} {rq : Request} {p : Piece} {position : Nat} (h : (s.looked rq p position).2.1 = none) :
    (s.looked rq p position).2.2 = [] := by
  unfold State.looked at h ⊢
  split at h
  · cases h
  · split at h
    · rename_i permits
      rw [if_pos permits]
    · cases h
  · rfl

theorem looked_of_miss {s : State} {rq : Request} {p : Piece} (miss : s.lookUp p.index = .miss) (position : Nat) :
    s.looked rq p position = (p, none, []) := by
  unfold State.looked
  rw [miss]

/-- The place of a piece's first byte in its page (R65). -/
def Request.position (rq : Request) (upper : Bool) : Nat := if upper then 0 else rq.address.toNat % 4096

/-- One lookup at acceptance, on the slot at the tail. -/
theorem lookPiece_enlist {rq : Request} {c : Capture} {ps : List Piece} {s : State} {x : Translation} {number : Byte}
    {d : Decoded} {failure : Option RespStatus} {reports : List Report} {upper : Bool} {p : Piece}
    (fresh : ∀ q ∈ (s.lane rq.lane).slots, q.tag ≠ rq.tag) (cache : x.cache = s.xlat.cache)
    (piece : ps[(⟨rq.lane, rq.tag, upper⟩ : PieceRef).place]? = some p) :
    lookPiece rq.lane (newSlot rq number d []) upper p.index
        ⟨enlist rq (.translated c ps) { s with xlat := x }, failure, reports⟩ =
      ⟨enlist rq (.translated c (ps.set (⟨rq.lane, rq.tag, upper⟩ : PieceRef).place (s.looked rq p (rq.position upper)).1))
          { s with xlat := s.lookedIn x p ⟨rq.lane, rq.tag, upper⟩ },
        failure.or (s.looked rq p (rq.position upper)).2.1, reports ++ (s.looked rq p (rq.position upper)).2.2⟩ := by
  have look : (enlist rq (.translated c ps) { s with xlat := x }).lookUp p.index = s.lookUp p.index := by
    unfold State.lookUp
    rw [enlist_portRow, IndexKept.enlist_xlat, cache]
  have upd := fun f => updPiece_enlist (s := { s with xlat := x }) (c := c) fresh f piece
  have or_eq : ∀ st, some (failure.getD st) = failure.or (some st) := fun st => by cases failure <;> rfl
  unfold lookPiece
  dsimp only
  rw [look]
  unfold State.looked State.lookedIn
  cases found : s.lookUp p.index with
  | beyond =>
    dsimp only
    rw [if_neg Found.noConfusion, or_eq]
    exact congrArg (Lookups.mk · _ _) (upd _)
  | hit e =>
    dsimp only
    rw [if_neg (show Found.hit e ≠ Found.miss from Found.noConfusion)]
    by_cases permits : e.permits rq.dir = true
    · rw [if_pos permits, if_pos (show e.permits (newSlot rq number d []).dir = true from permits), Option.or_none, List.append_nil]
      exact congrArg (Lookups.mk · _ _) (upd _)
    · rw [if_neg permits, if_neg (show ¬e.permits (newSlot rq number d []).dir = true from permits), or_eq]
      exact congrArg (Lookups.mk · _ _) (upd _)
  | miss =>
    dsimp only
    rw [if_pos rfl, Option.or_none, List.append_nil, joinWaiters_eq, IndexKept.enlist_xlat, enlist_withXlat]
    have same : ps.set (⟨rq.lane, rq.tag, upper⟩ : PieceRef).place p = ps := by
      obtain ⟨inside, rfl⟩ := List.getElem?_eq_some_iff.1 piece
      exact List.set_getElem_self inside
    rw [same]
    rfl

/-! ### The lookups of one or two pieces (R64, R74) -/

/-- What the lookups of a request's pieces come to, the lower first. -/
def State.lookedAll (s : State) (rq : Request) (ps : List Piece) : List (Piece × Option RespStatus × List Report) :=
  (ps.zip [rq.address.toNat % 4096, 0]).map fun x => s.looked rq x.1 x.2

/-- The pieces after their lookups, the failure of the lowest failing one, and the reports. -/
def State.lookedPieces (s : State) (rq : Request) (ps : List Piece) : List Piece := (s.lookedAll rq ps).map (·.1)
def State.lookedFailure (s : State) (rq : Request) (ps : List Piece) : Option RespStatus :=
  ((s.lookedAll rq ps).filterMap (·.2.1)).head?
def State.lookedReports (s : State) (rq : Request) (ps : List Piece) : List Report := (s.lookedAll rq ps).flatMap (·.2.2)

/-- The translation unit after them. -/
def State.lookedUnit (s : State) (rq : Request) (ps : List Piece) : Translation :=
  (ps.zip [false, true]).foldl (fun x y => s.lookedIn x y.1 ⟨rq.lane, rq.tag, y.2⟩) s.xlat

/-- The pieces that decode forms: one, or two of consecutive indexes (R62). -/
theorem decode_pieces {s : State} {rq : Request} {c : Capture} {ps : List Piece} (h : s.decode rq = .translated c ps) :
    (∃ p, ps = [p]) ∨ ∃ p q, ps = [p, q] ∧ q.index = p.index + 1 := by
  unfold State.decode at h
  split at h; · cases h
  dsimp only at h
  split at h; · cases h
  split at h; · cases h
  unfold decodeByKind at h
  dsimp only at h
  split at h <;> cases h
  unfold translatedPieces
  split
  · exact .inl ⟨_, rfl⟩
  · exact .inr ⟨_, _, rfl, rfl⟩

theorem head?_filterMap_cons {α β : Type} (f : α → Option β) (a : α) (as : List α) :
    ((a :: as).filterMap f).head? = (f a).or (as.filterMap f).head? := by
  cases found : f a <;> simp [found]

theorem lookPieces_enlist {rq : Request} {c : Capture} {ps : List Piece} {s : State} (number : Byte)
    (fresh : ∀ q ∈ (s.lane rq.lane).slots, q.tag ≠ rq.tag) (decoded : s.decode rq = .translated c ps) :
    lookPieces rq.lane (newSlot rq number (.translated c ps) []) (enlist rq (.translated c ps) s) =
      ⟨enlist rq (.translated c (s.lookedPieces rq ps)) { s with xlat := s.lookedUnit rq ps }, s.lookedFailure rq ps,
        s.lookedReports rq ps⟩ := by
  have lower := fun (qs : List Piece) (p : Piece) => lookPiece_enlist (c := c) (number := number) (d := .translated c ps)
    (ps := p :: qs) (failure := none) (reports := []) (upper := false) (x := s.xlat) fresh rfl rfl
  unfold State.lookedPieces State.lookedFailure State.lookedReports State.lookedAll
  rcases decode_pieces decoded with ⟨p, rfl⟩ | ⟨p, q, rfl, _⟩
  · refine (lower [] p).trans ?_
    simp only [List.zip_cons_cons, List.zip_nil_left, List.map_cons, List.map_nil, List.flatMap_cons, List.flatMap_nil,
      head?_filterMap_cons, List.filterMap_nil, List.head?_nil, List.nil_append, List.append_nil, Option.none_or, Option.or_none]
    rfl
  · have upper := lookPiece_enlist (c := c) (number := number) (d := .translated c [p, q])
      (ps := [(s.looked rq p (rq.position false)).1, q]) (failure := (s.looked rq p (rq.position false)).2.1)
      (reports := (s.looked rq p (rq.position false)).2.2) (upper := true)
      (x := s.lookedIn s.xlat p ⟨rq.lane, rq.tag, false⟩) fresh (lookedIn_cache ..) rfl
    refine (congrArg (lookPiece rq.lane _ true q.index) (lower [q] p)).trans ?_
    refine Eq.trans ?_ (upper.trans ?_)
    · rw [Option.none_or, List.nil_append]
      rfl
    · simp only [List.zip_cons_cons, List.zip_nil_left, List.map_cons, List.map_nil, List.flatMap_cons, List.flatMap_nil,
        head?_filterMap_cons, List.filterMap_nil, List.head?_nil, List.append_nil, Option.or_none]
      rfl

end Sys2Proof.Machine
end
section
/-! An accepted request whose lookups fail no piece, in either direction (O39): its slot, its units and its payload. -/

namespace Sys2Proof.Machine

/-! ### The units of a request (R91) -/

/-- How many units a request takes, and which. -/
def Request.needs (rq : Request) : Nat := if rq.dir = .write then unitsFor rq.length else 0
def State.unitsGiven (s : State) (rq : Request) : List Nat :=
  if rq.dir = .write then s.unitsOfWrite rq.lane rq.length else []

/-- A request's payload fits its units: a WRITE's has its length and has units enough, a READ has none. -/
structure State.Supplies (s : State) (rq : Request) : Prop where
  read : rq.dir = .read → rq.data = []
  write : rq.dir = .write → rq.data.length = rq.length ∧ (s.unitsOfWrite rq.lane rq.length).length = unitsFor rq.length

theorem needs_of_write {rq : Request} (write : rq.dir = .write) : rq.needs = unitsFor rq.length := if_pos write
theorem needs_of_read {rq : Request} (read : rq.dir = .read) : rq.needs = 0 := if_neg (by rw [read]; exact Dir.noConfusion)
theorem unitsGiven_of_write {rq : Request} (s : State) (write : rq.dir = .write) :
    s.unitsGiven rq = s.unitsOfWrite rq.lane rq.length := if_pos write
theorem unitsGiven_of_read {rq : Request} (s : State) (read : rq.dir = .read) : s.unitsGiven rq = [] :=
  if_neg (by rw [read]; exact Dir.noConfusion)

theorem slotOf_eq (s : State) (rq : Request) (d : Decoded) :
    s.slotOf rq d = newSlot rq (s.lane rq.lane).number d (s.unitsGiven rq) := by
  unfold State.slotOf
  cases dir : rq.dir with
  | read => rw [unitsGiven_of_read s dir]
  | write => rw [unitsGiven_of_write s dir, ← freeUnits_eq_unitsOfWrite]

/-! ### What an accepted request leaves when nothing completes it (R26, R91) -/

/-- The request's slot stands at the tail of its lane's list, with its units and its payload. -/
structure EnlistedAs (rq : Request) (slot : Slot) (s t : State) : Prop where
  lane : t.lane rq.lane = { s.lane rq.lane with
    slots := (s.lane rq.lane).slots ++ [slot], credit := (s.lane rq.lane).credit - rq.needs }
  area : t.area (s.agent rq.lane).area = { s.area (s.agent rq.lane).area with
    writeOccupied := (s.area (s.agent rq.lane).area).writeOccupied + rq.needs }
  areas : ∀ b, b ≠ (s.agent rq.lane).area → t.area b = s.area b
  placed : Memory.placed s.staging t.staging (s.unitsGiven rq) rq.data
  others : ∀ k, k ≠ rq.lane → t.lane k = s.lane k
  faults : t.faults = s.faults
  port : t.port = s.port
  classes : t.classes = s.classes
  link : t.link = s.link
  mgmt : t.mgmt = s.mgmt
  timebase : t.timebase = s.timebase

theorem placed_nothing (m : Memory) : Memory.placed m m [] [] := ⟨nofun, fun _ _ => rfl⟩

theorem enlist_as {rq : Request} {s : State} (supplies : s.Supplies rq) (d : Decoded) :
    EnlistedAs rq (s.slotOf rq d) s (enlist rq d s) := by
  have others := fun k (hk : k ≠ rq.lane) => enlist_lane_ne rq d s hk
  cases dir : rq.dir with
  | read =>
    have own : (enlist rq d s).lane rq.lane = (s.lane rq.lane).enlisted (s.slotOf rq d) := by
      rw [enlist_read dir, setLane_lane_self, slotOf_eq, unitsGiven_of_read s dir]
    have eq := enlist_read (d := d) (s := s) dir
    refine ⟨own.trans ?_, ?_, fun b _ => by rw [eq]; rfl, ?_, others, by rw [eq]; rfl, by rw [eq]; rfl, by rw [eq]; rfl,
      by rw [eq]; rfl, by rw [eq]; rfl, by rw [eq]; rfl⟩
    · rw [needs_of_read dir]
      rfl
    · rw [eq, needs_of_read dir]
      rfl
    · rw [eq, unitsGiven_of_read s dir, supplies.read dir]
      exact placed_nothing s.staging
  | write =>
    obtain ⟨data, space⟩ := supplies.write dir
    obtain ⟨own, area, areas, _, placed, faults, timebase, classes, mgmt, link, port, _⟩ :=
      enlist_write_effect (d := d) dir data space
    rw [← needs_of_write dir] at own area
    refine ⟨own.trans ?_, area, areas, ?_, others, faults, port, classes, link, mgmt, timebase⟩
    · rw [slotOf_eq, unitsGiven_of_write s dir]
    · rw [unitsGiven_of_write s dir]
      exact placed

/-- A change of the slot at the tail. -/
theorem EnlistedAs.updSlot {rq : Request} {slot : Slot} {s t : State} (h : EnlistedAs rq slot s t) (tag : slot.tag = rq.tag)
    (fresh : ∀ q ∈ (s.lane rq.lane).slots, q.tag ≠ rq.tag) (f : Slot → Slot) :
    EnlistedAs rq (f slot) s (t.updSlot rq.lane rq.tag f) := by
  refine ⟨?_, h.area, h.areas, h.placed, fun k hk => (updSlot_lane_ne t rq.tag f hk).trans (h.others k hk), h.faults, h.port,
    h.classes, h.link, h.mgmt, h.timebase⟩
  rw [updSlot_lane_self, h.lane, ← tag]
  exact updSlot_enlisted (r := { s.lane rq.lane with credit := (s.lane rq.lane).credit - rq.needs })
    fun q hq => tag ▸ fresh q hq

/-- The translation unit is no part of it. -/
theorem EnlistedAs.withXlat {rq : Request} {slot : Slot} {s t : State} (h : EnlistedAs rq slot s t) (x : Translation) :
    EnlistedAs rq slot s { t with xlat := x } :=
  ⟨h.lane, h.area, h.areas, h.placed, h.others, h.faults, h.port, h.classes, h.link, h.mgmt, h.timebase⟩

/-! ### The acceptance of a TRANSLATED request -/

/-- The enlisted state after its lookups. -/
def State.lookedUp (s : State) (rq : Request) (c : Capture) (ps : List Piece) : State :=
  { enlist rq (.translated c (s.lookedPieces rq ps)) s with xlat := s.lookedUnit rq ps }

theorem accept_translated {rq : Request} {c : Capture} {ps : List Piece} {s : State}
    (fresh : ∀ q ∈ (s.lane rq.lane).slots, q.tag ≠ rq.tag) (decoded : s.decode rq = .translated c ps) :
    (s.lookedFailure rq ps = none → accept rq s =
        reportAll (s.lookedReports rq ps) (takeIndexes (queueIfDone rq.lane rq.tag (s.lookedUp rq c ps))))
      ∧ ∀ st, s.lookedFailure rq ps = some st → accept rq s =
        reportAll (s.lookedReports rq ps) (takeIndexes (completeSlot rq.lane rq.tag st (s.lookedUp rq c ps))) := by
  have looked : lookPieces rq.lane _ _ = ⟨s.lookedUp rq c ps, _, _⟩ :=
    (lookPieces_enlist (s.lane rq.lane).number fresh decoded).trans (by unfold State.lookedUp; rw [enlist_withXlat])
  unfold accept translateSlot
  rw [decoded]
  dsimp only
  rw [looked]
  dsimp only
  exact ⟨fun h => by rw [h]; rfl, fun st h => by rw [h]; rfl⟩

/-- Without a failure there is no report. -/
theorem lookedReports_eq_nil {s : State} {rq : Request} {ps : List Piece} (h : s.lookedFailure rq ps = none) :
    s.lookedReports rq ps = [] := by
  refine List.flatMap_eq_nil_iff.2 fun r hr => ?_
  have none_ := List.filterMap_eq_nil_iff.1 (List.head?_eq_none_iff.1 h) r hr
  obtain ⟨x, _, rfl⟩ := List.mem_map.1 hr
  exact looked_reports none_

/-- The slot of a request whose lookups fail no piece (R28). -/
def Slot.queuedIfDone (q : Slot) : Slot :=
  if q.stage == .translating && q.pieces.all fun p => p.xlat == .done then { q with stage := .queued } else q

/-- The state of a request whose lookups fail no piece. -/
theorem accept_of_looked {rq : Request} {c : Capture} {ps : List Piece} {s : State}
    (fresh : ∀ q ∈ (s.lane rq.lane).slots, q.tag ≠ rq.tag) (decoded : s.decode rq = .translated c ps)
    (passes : s.lookedFailure rq ps = none) :
    accept rq s = takeIndexes (queueIfDone rq.lane rq.tag (s.lookedUp rq c ps)) := by
  rw [(accept_translated fresh decoded).1 passes, lookedReports_eq_nil passes]
  rfl

theorem accept_enlistedAs {rq : Request} {c : Capture} {ps : List Piece} {s : State} (supplies : s.Supplies rq)
    (fresh : ∀ q ∈ (s.lane rq.lane).slots, q.tag ≠ rq.tag) (decoded : s.decode rq = .translated c ps)
    (passes : s.lookedFailure rq ps = none) :
    EnlistedAs rq (s.slotOf rq (.translated c (s.lookedPieces rq ps))).queuedIfDone s (accept rq s) := by
  rw [accept_of_looked fresh decoded passes]
  obtain ⟨x, fields, _⟩ := takeIndexes_fields (queueIfDone rq.lane rq.tag (s.lookedUp rq c ps))
  rw [fields]
  exact (((enlist_as supplies _).withXlat (s.lookedUnit rq ps)).updSlot rfl fresh Slot.queuedIfDone).withXlat x

/-! ### The pieces that a lookup misses -/

theorem lookUp_eq_miss {s : State} {i : Nat} (inside : i < s.portRow.entryCount) (uncached : ∀ e ∈ s.xlat.cache, e.index ≠ i) :
    s.lookUp i = .miss := by
  have none_ : (s.xlat.cache.find? fun e => e.index == i) = none :=
    List.find?_eq_none.2 fun e he => by simpa using uncached e he
  unfold State.lookUp
  rw [if_neg (Nat.not_le.2 inside), none_]

/-- A missing piece waits for its index. -/
theorem lookedUnit_awaits {s : State} {rq : Request} {c : Capture} {ps : List Piece} (decoded : s.decode rq = .translated c ps)
    {k : Nat} {p : Piece} (piece : ps[k]? = some p) (miss : s.lookUp p.index = .miss) :
    (s.lookedUnit rq ps).Awaits p.index ⟨rq.lane, rq.tag, k == 1⟩ := by
  have own : ∀ x ref, (s.lookedIn x p ref).Awaits p.index ref := fun x ref => by
    rw [lookedIn_of_miss miss]
    exact awaits_joined_self x p.index ref
  rcases decode_pieces decoded with ⟨a, rfl⟩ | ⟨a, b, rfl, _⟩
  · match k, piece with
    | 0, piece =>
      cases piece
      exact own s.xlat _
  · match k, piece with
    | 0, piece =>
      cases piece
      exact (own s.xlat _).lookedIn s b _
    | 1, piece =>
      cases piece
      exact own _ _

theorem accept_awaits {rq : Request} {c : Capture} {ps : List Piece} {s : State}
    (fresh : ∀ q ∈ (s.lane rq.lane).slots, q.tag ≠ rq.tag) (decoded : s.decode rq = .translated c ps)
    (passes : s.lookedFailure rq ps = none) {k : Nat} {p : Piece} (piece : ps[k]? = some p) (miss : s.lookUp p.index = .miss) :
    (accept rq s).xlat.Awaits p.index ⟨rq.lane, rq.tag, k == 1⟩ := by
  rw [accept_of_looked fresh decoded passes]
  exact awaits_takeIndexes (s := queueIfDone rq.lane rq.tag (s.lookedUp rq c ps)) (lookedUnit_awaits decoded piece miss)

/-! ### The translation unit after the acceptance of one missing piece (R73, R76) -/

/-- One piece that misses. -/
theorem looked_one {s : State} {rq : Request} {p : Piece} (miss : s.lookUp p.index = .miss) :
    s.lookedFailure rq [p] = none ∧ s.lookedUnit rq [p] = s.xlat.joined p.index ⟨rq.lane, rq.tag, false⟩ := by
  refine ⟨?_, lookedIn_of_miss miss s.xlat _⟩
  show List.head? (List.filterMap _ [s.looked rq p _]) = none
  rw [looked_of_miss miss]
  rfl

/-- Two pieces that miss. -/
theorem looked_two {s : State} {rq : Request} {p q : Piece} (lower : s.lookUp p.index = .miss)
    (upper : s.lookUp q.index = .miss) : s.lookedFailure rq [p, q] = none
      ∧ s.lookedUnit rq [p, q] =
        (s.xlat.joined p.index ⟨rq.lane, rq.tag, false⟩).joined q.index ⟨rq.lane, rq.tag, true⟩ := by
  refine ⟨?_, ?_⟩
  · show List.head? (List.filterMap _ [s.looked rq p _, s.looked rq q _]) = none
    rw [looked_of_miss lower, looked_of_miss upper]
    rfl
  · show s.lookedIn (s.lookedIn s.xlat p _) q _ = _
    rw [lookedIn_of_miss lower, lookedIn_of_miss upper]

section
variable {rq : Request} {c : Capture} {ps : List Piece} {s : State} (fresh : ∀ q ∈ (s.lane rq.lane).slots, q.tag ≠ rq.tag)
  (decoded : s.decode rq = .translated c ps) (passes : s.lookedFailure rq ps = none)

include fresh decoded passes

/-- No walk slot takes an index. -/
theorem accept_xlat_of_idle
    (idle : (s.lookedUnit rq ps).waiting = [] ∨ ∀ w : WalkNo, (s.lookedUnit rq ps).walks[w] ≠ none) :
    (accept rq s).xlat = s.lookedUnit rq ps := by
  rw [accept_of_looked fresh decoded passes,
    takeIndexes_of_idle (s := queueIfDone rq.lane rq.tag (s.lookedUp rq c ps)) idle]
  rfl

/-- One of them takes the one that waits. -/
theorem accept_xlat_of_one {w : WalkNo} {e : WaitingIndex} (free : (s.lookedUnit rq ps).walks[w] = none)
    (lowest : ∀ v : WalkNo, v < w → (s.lookedUnit rq ps).walks[v] ≠ none) (waiting : (s.lookedUnit rq ps).waiting = [e]) :
    (accept rq s).xlat = (s.lookedUnit rq ps).nextIndex w := by
  rw [accept_of_looked fresh decoded passes,
    takeIndexes_of_one (s := queueIfDone rq.lane rq.tag (s.lookedUp rq c ps)) free lowest waiting]
  rfl

/-- Each of them takes one of the two that wait. -/
theorem accept_xlat_of_two {e f : WaitingIndex} (free : ∀ w : WalkNo, (s.lookedUnit rq ps).walks[w] = none)
    (waiting : (s.lookedUnit rq ps).waiting = [e, f]) :
    (accept rq s).walk 0 = some ⟨false, e.index, e.waiters, false, (s.lookedUnit rq ps).nextAge⟩
      ∧ (accept rq s).walk 1 = some ⟨false, f.index, f.waiters, false, (s.lookedUnit rq ps).nextAge + 1⟩
      ∧ (accept rq s).xlat.waiting = [] := by
  rw [accept_of_looked fresh decoded passes]
  exact takeIndexes_of_two (s := queueIfDone rq.lane rq.tag (s.lookedUp rq c ps)) free waiting

end

end Sys2Proof.Machine
end
section
/-! An accepted request that a lookup fails, in either direction (O39): COMPLETE from acceptance, its units given back. -/

namespace Sys2Proof.Machine

/-- The space that the grant rule sees once the request has given back the units it took from the credit (R102). -/
def State.freeAfter (s : State) (rq : Request) : Nat :=
  (s.area (s.agent rq.lane).area).row.writeUnits
    - ((s.area (s.agent rq.lane).area).writeOccupied + ((s.lane rq.lane).credit - rq.needs))

/-- The grant rule is met after a WRITE (R102). -/
def State.grantsAfter (s : State) (rq : Request) : Prop :=
  rq.dir = .write ∧ 0 < s.freeAfter rq ∧ ((s.agent rq.lane).quantum ≤ s.freeAfter rq
    ∨ ((s.area (s.agent rq.lane).area).writeOccupied = 0 ∧ (s.lane rq.lane).credit - rq.needs = 0))

/-- What a request that is COMPLETE from acceptance leaves: its slot holds no unit, and its area is as it was. -/
structure ClosedAs (rq : Request) (slot : Slot) (s t : State) : Prop where
  slots : (t.lane rq.lane).slots = (s.lane rq.lane).slots ++ [slot]
  stream : (s.lane rq.lane).TailAnswered (t.lane rq.lane) rq.tag
  granted : s.grantsAfter rq → (t.lane rq.lane).credit = (s.lane rq.lane).credit - rq.needs + s.freeAfter rq
    ∧ (t.lane rq.lane).creditWaiting = some ((s.lane rq.lane).creditWaiting.getD 0 + s.freeAfter rq)
  ungranted : ¬s.grantsAfter rq → (t.lane rq.lane).credit = (s.lane rq.lane).credit - rq.needs
    ∧ (t.lane rq.lane).creditWaiting = (s.lane rq.lane).creditWaiting
  areas : ∀ b, t.area b = s.area b
  dropped : Memory.dropped s.staging t.staging (s.unitsGiven rq)
  others : ∀ k, k ≠ rq.lane → t.lane k = s.lane k
  port : t.port = s.port
  classes : t.classes = s.classes
  link : t.link = s.link
  mgmt : t.mgmt = s.mgmt

/-- The slot of a request that is COMPLETE from acceptance. -/
def Slot.closed (q : Slot) (st : RespStatus) : Slot := { q with stage := .complete, status := some st, held := [] }

/-- A WRITE. -/
theorem WriteSettled.closedAs {rq : Request} {d : Decoded} {st : RespStatus} {s t : State} (write : rq.dir = .write)
    (h : WriteSettled rq { s.writeSlot rq d with stage := .complete, status := some st, held := [] } s t) :
    ClosedAs rq ((s.slotOf rq d).closed st) s t := by
  have needs := needs_of_write write
  have free : s.freeAfter rq = s.freeAfterWrite rq := by rw [State.freeAfter, needs]; rfl
  have grants : s.grantsAfter rq ↔ s.grantsAfterWrite rq := by
    unfold State.grantsAfter State.grantsAfterWrite
    rw [free, needs]
    exact and_iff_right write
  have slot : s.slotOf rq d = s.writeSlot rq d := by rw [slotOf_eq, unitsGiven_of_write s write]
  refine ⟨h.slots.trans (by rw [slot]; rfl), h.stream, fun granted => ?_, fun granted => ?_, h.areas, ?_, h.others, h.port,
    h.classes, h.link, h.mgmt⟩
  · rw [needs, free]
    exact h.credit.1 (grants.1 granted)
  · rw [needs]
    exact h.credit.2 (mt grants.2 granted)
  · rw [unitsGiven_of_write s write]
    exact h.staging

/-- A READ: it holds no unit to give back. -/
theorem completeSlot_enlist_read_closedAs {rq : Request} {d : Decoded} {s : State} (st : RespStatus) (read : rq.dir = .read)
    (fresh : ∀ q ∈ (s.lane rq.lane).slots, q.tag ≠ rq.tag) :
    ClosedAs rq ((s.slotOf rq d).closed st) s (completeSlot rq.lane rq.tag st (enlist rq d s)) := by
  have slot : s.slotOf rq d = newSlot rq (s.lane rq.lane).number d [] := by rw [slotOf_eq, unitsGiven_of_read s read]
  have fresh : ∀ q ∈ (s.lane rq.lane).slots, q.tag ≠ (s.slotOf rq d).tag := fresh
  have eq : enlist rq d s = s.setLane rq.lane ((s.lane rq.lane).enlisted (s.slotOf rq d)) := by rw [enlist_read read, slot]
  have lane : (enlist rq d s).lane rq.lane = (s.lane rq.lane).enlisted (s.slotOf rq d) := by rw [eq, setLane_lane_self]
  have found : (enlist rq d s).slot? rq.lane rq.tag = some (s.slotOf rq d) := by
    show ((enlist rq d s).lane rq.lane).slot? _ = _
    rw [lane]
    exact slot?_enlisted fresh
  have dir : (s.slotOf rq d).dir = .read := read
  have unheld : (s.slotOf rq d).held = [] := by rw [slot]; rfl
  have back : (s.slotOf rq d).givenBack st = [] := by rw [Slot.givenBack, unheld]; rfl
  have completed : (s.slotOf rq d).completed .read st = (s.slotOf rq d).closed st := by
    rw [Slot.completed, unheld]
    rfl
  obtain ⟨slots, _, _, _, _, _, _, stream⟩ := completeSlot_lane st found
  obtain ⟨rest, areas, port, classes, mgmt, _, staging, _⟩ := completeSlot_rest st found
  obtain ⟨credit, waiting⟩ := (completeSlot_credit st found).2 (.inl dir)
  have slots : ((completeSlot rq.lane rq.tag st (enlist rq d s)).lane rq.lane).slots =
      (s.lane rq.lane).slots ++ [(s.slotOf rq d).closed st] := by
    rw [slots, lane, dir, ← completed]
    exact map_upd_append _ fresh
  refine ⟨slots, tailAnswered_of_handed (q := (s.slotOf rq d).closed st) rfl ?_, fun granted => ?_, fun _ => ⟨?_, ?_⟩,
    fun b => ?_, ?_, fun k hk => (rest k hk).trans (enlist_lane_ne rq d s hk), port.trans (by rw [eq]; rfl),
    classes.trans (by rw [eq]; rfl), ((completeSlot_inner _ _ _ _).link.trans (by rw [eq]; rfl)), mgmt.trans (by rw [eq]; rfl)⟩
  · rw [stream, slots, lane]
    rfl
  · exact absurd (read.symm.trans granted.1) Dir.noConfusion
  · rw [credit, lane, needs_of_read read]
    rfl
  · rw [waiting, lane]
    rfl
  · rw [areas b, back, eq]
    split
    · rw [dir]
      rfl
    · rfl
  · rw [staging, back, unitsGiven_of_read s read, eq]
    exact fun _ => (if_neg List.not_mem_nil).symm

/-- A request that is enlisted and becomes COMPLETE in one change. -/
theorem completeSlot_enlist_closedAs {rq : Request} {s : State} (d : Decoded) (st : RespStatus) (supplies : s.Supplies rq)
    (active : (s.lane rq.lane).session = .active) (fresh : ∀ q ∈ (s.lane rq.lane).slots, q.tag ≠ rq.tag) :
    ClosedAs rq ((s.slotOf rq d).closed st) s (completeSlot rq.lane rq.tag st (enlist rq d s)) := by
  cases dir : rq.dir with
  | read => exact completeSlot_enlist_read_closedAs st dir fresh
  | write =>
    obtain ⟨data, space⟩ := supplies.write dir
    exact (completeSlot_enlist_write dir active fresh data space).closedAs dir

/-- The translation unit is no part of it, neither before nor after. -/
theorem ClosedAs.withXlat {rq : Request} {slot : Slot} {s t : State} {x : Translation}
    (h : ClosedAs rq slot { s with xlat := x } t) (y : Translation) : ClosedAs rq slot s { t with xlat := y } :=
  ⟨h.slots, h.stream, h.granted, h.ungranted, h.areas, h.dropped, h.others, h.port, h.classes, h.link, h.mgmt⟩

/-- Reports that may suspend the lane leave it so. -/
theorem ClosedAs.reported {rq : Request} {slot : Slot} {s t u : State} (h : ClosedAs rq slot s t)
    (reported : Reported rq.lane t u) : ClosedAs rq slot s u := by
  obtain ⟨x, lane, _⟩ := reported.lane
  exact
    { slots := by rw [lane]; exact h.slots
      stream := by unfold LaneState.TailAnswered; rw [lane]; exact h.stream
      granted := by rw [lane]; exact h.granted
      ungranted := by rw [lane]; exact h.ungranted
      areas := fun b => by simp only [State.area, reported.areas]; exact h.areas b
      dropped := by rw [reported.staging]; exact h.dropped
      others := fun k hk => (reported.others k hk).trans (h.others k hk)
      port := reported.port.trans h.port
      classes := reported.classes.trans h.classes
      link := reported.link.trans h.link
      mgmt := reported.mgmt.trans h.mgmt }

end Sys2Proof.Machine
end
section
/-! The acceptance of a TRANSLATED request (O39). -/

namespace Sys2Proof.Machine

/-! ### The reports of an acceptance -/

theorem Reported.refl (l : Lane) (s : State) : Reported l s s :=
  ⟨fun _ _ => rfl, ⟨_, rfl, fun _ => rfl⟩, rfl, rfl, rfl, rfl, rfl, rfl⟩

theorem Reported.trans {l : Lane} {s t u : State} (a : Reported l s t) (b : Reported l t u) : Reported l s u := by
  obtain ⟨x, before, kept⟩ := a.lane
  obtain ⟨y, after, kept'⟩ := b.lane
  refine ⟨fun k hk => (b.others k hk).trans (a.others k hk), ⟨y, ?_, fun idle => ?_⟩, b.areas.trans a.areas,
    b.staging.trans a.staging, b.mgmt.trans a.mgmt, b.link.trans a.link, b.classes.trans a.classes, b.port.trans a.port⟩
  · rw [after, before]
  · rw [before] at kept'
    have same := kept idle
    exact (kept' (same ▸ idle)).trans same

/-- Reports of one lane taken in turn. -/
theorem reportAll_reported {l : Lane} : ∀ (reps : List Report) (s : State), (∀ rep ∈ reps, rep.lane = some l) →
    Reported l s (reportAll reps s)
  | [], s, _ => Reported.refl l s
  | rep :: reps, s, own =>
    (report_reported (own rep (List.mem_cons_self ..)) s).trans
      (reportAll_reported reps (report rep s) fun r hr => own r (List.mem_cons_of_mem _ hr))

theorem lookedReports_lane {s : State} {rq : Request} {ps : List Piece} :
    ∀ rep ∈ s.lookedReports rq ps, rep.lane = some rq.lane := by
  intro rep mem
  obtain ⟨r, hr, mem⟩ := List.mem_flatMap.1 mem
  obtain ⟨x, _, rfl⟩ := List.mem_map.1 hr
  unfold State.looked at mem
  split at mem
  · rw [List.mem_singleton.1 mem]; rfl
  · split at mem
    · cases mem
    · rw [List.mem_singleton.1 mem]; rfl
  · cases mem

/-- Reports look at the fault unit, the claim and the time alone. -/
theorem faultsAfter_congr {s t : State} (faults : t.faults = s.faults) (claim : t.mgmt.claim = s.mgmt.claim)
    (timebase : t.timebase = s.timebase) (reps : List Report) : t.faultsAfter reps = s.faultsAfter reps := by
  unfold State.faultsAfter
  rw [faults, claim, timebase]

/-! ### What an acceptance leaves -/

theorem lookedUnit_cache {s : State} {rq : Request} {c : Capture} {ps : List Piece} (decoded : s.decode rq = .translated c ps) :
    (s.lookedUnit rq ps).cache = s.xlat.cache := by
  rcases decode_pieces decoded with ⟨p, rfl⟩ | ⟨p, q, rfl, _⟩
  · exact lookedIn_cache s s.xlat p _
  · exact (lookedIn_cache s _ q _).trans (lookedIn_cache s s.xlat p _)

section
variable {rq : Request} {c : Capture} {ps : List Piece} {s : State} (fresh : ∀ q ∈ (s.lane rq.lane).slots, q.tag ≠ rq.tag)
  (decoded : s.decode rq = .translated c ps)

include fresh decoded

/-- Without a failure the cache stays. -/
theorem accept_cache_of_looked (passes : s.lookedFailure rq ps = none) : (accept rq s).xlat.cache = s.xlat.cache := by
  rw [accept_of_looked fresh decoded passes]
  obtain ⟨x, fields, cache, _⟩ := takeIndexes_fields (queueIfDone rq.lane rq.tag (s.lookedUp rq c ps))
  rw [fields]
  exact cache.trans (lookedUnit_cache decoded)

/-- A request that a lookup fails. -/
theorem accept_of_failed {st : RespStatus} (supplies : s.Supplies rq) (active : (s.lane rq.lane).session = .active)
    (fails : s.lookedFailure rq ps = some st) :
    ClosedAs rq ((s.slotOf rq (.translated c (s.lookedPieces rq ps))).closed st) s (accept rq s)
      ∧ (accept rq s).xlat.cache = s.xlat.cache ∧ (accept rq s).faults = s.faultsAfter (s.lookedReports rq ps)
      ∧ (accept rq s).noWaiterOf rq.lane rq.tag := by
  rw [(accept_translated fresh decoded).2 st fails]
  have stands : s.lookedUp rq c ps = enlist rq (.translated c (s.lookedPieces rq ps)) { s with xlat := s.lookedUnit rq ps } :=
    enlist_withXlat ..
  have closed := completeSlot_enlist_closedAs (s := { s with xlat := s.lookedUnit rq ps })
    (.translated c (s.lookedPieces rq ps)) st ⟨supplies.read, supplies.write⟩ active fresh
  rw [← stands] at closed
  have found : (s.lookedUp rq c ps).slot? rq.lane rq.tag = some (s.slotOf rq (.translated c (s.lookedPieces rq ps))) := by
    show ((enlist rq (.translated c (s.lookedPieces rq ps)) s).lane rq.lane).slot? _ = _
    rw [(enlist_as supplies _).lane]
    exact slot?_append_self (q := s.slotOf rq (.translated c (s.lookedPieces rq ps))) fresh
  have entered := (enlist_as supplies (.translated c (s.lookedPieces rq ps))).withXlat (s.lookedUnit rq ps)
  have inner := completeSlot_inner rq.lane rq.tag st (s.lookedUp rq c ps)
  have unwaited := completeSlot_unwaited (st := st) found
  obtain ⟨_, _, _, _, _, xlat, _⟩ := completeSlot_rest st found
  have cache : (completeSlot rq.lane rq.tag st (s.lookedUp rq c ps)).xlat.cache = s.xlat.cache :=
    (congrArg Translation.cache xlat).trans (lookedUnit_cache decoded)
  generalize completeSlot rq.lane rq.tag st (s.lookedUp rq c ps) = u at *
  obtain ⟨x, fields, taken, waiters⟩ := takeIndexes_fields u
  rw [fields]
  have reports := reportAll_after (s.lookedReports rq ps) { u with xlat := x }
  refine ⟨(closed.withXlat x).reported (reportAll_reported _ _ lookedReports_lane), ?_, ?_, ?_⟩
  · rw [reports.xlat]
    exact taken.trans cache
  · rw [reportAll_faults]
    exact faultsAfter_congr (t := { u with xlat := x }) (inner.faults.trans entered.faults)
      (inner.claim.trans (congrArg Mgmt.claim entered.mgmt)) (inner.timebase.trans entered.timebase) _
  · refine noWaiterOf_iff.2 (State.Unwaited.congr (s := { u with xlat := x }) (fun p hp => unwaited p ?_) reports.xlat)
    exact waiters.mem_iff.1 hp

end

/-! ### The walks after the acceptance of one missing piece (R73, R76) -/

section
variable {rq : Request} {c : Capture} {p : Piece} {s : State} (fresh : ∀ q ∈ (s.lane rq.lane).slots, q.tag ≠ rq.tag)
  (decoded : s.decode rq = .translated c [p]) (miss : s.lookUp p.index = .miss)

include fresh decoded miss

/-- Its index is held by a walk slot. -/
theorem accept_held {w : WalkNo} {x : Walk} (idle : s.xlat.waiting = [] ∨ ∀ v, s.walk v ≠ none) (walk : s.walk w = some x)
    (own : x.index = p.index) (lowest : ∀ v, v < w → ¬s.xlat.holds p.index v = true) :
    (accept rq s).xlat = { s.xlat with
      walks := s.xlat.walks.set w (some { x with waiters := x.waiters ++ [⟨rq.lane, rq.tag, false⟩] }) } := by
  obtain ⟨passes, unit⟩ := looked_one (rq := rq) miss
  rw [joined_of_held _ walk (holder_eq_some (holds_iff.2 ⟨x, walk, own⟩) lowest)] at unit
  rw [accept_xlat_of_idle fresh decoded passes, unit]
  rw [unit]
  refine idle.imp id fun busy v => ?_
  show (s.setWalk w (some _)).walk v ≠ none
  rw [setWalk_walk]
  split
  · exact Option.some_ne_none _
  · exact busy v

/-- Both walk slots hold other indexes, and an entry of the waiting list holds its. -/
theorem accept_listed {before after : List WaitingIndex} {e : WaitingIndex} (busy : ∀ v, s.walk v ≠ none)
    (unheld : ∀ v, ¬s.xlat.holds p.index v = true) (waiting : s.xlat.waiting = before ++ e :: after) (own : e.index = p.index)
    (others : ∀ y ∈ before ++ after, y.index ≠ p.index) :
    (accept rq s).xlat = { s.xlat with
      waiting := before ++ { e with waiters := e.waiters ++ [⟨rq.lane, rq.tag, false⟩] } :: after } := by
  obtain ⟨passes, unit⟩ := looked_one (rq := rq) miss
  rw [joined_of_listed _ (holder_eq_none.2 unheld) waiting own others] at unit
  rw [accept_xlat_of_idle fresh decoded passes (by rw [unit]; exact .inr busy), unit]

/-- Both hold other indexes, and nothing holds its. -/
theorem accept_new (busy : ∀ v, s.walk v ≠ none) (unheld : ∀ v, ¬s.xlat.holds p.index v = true)
    (unlisted : ∀ y ∈ s.xlat.waiting, y.index ≠ p.index) :
    (accept rq s).xlat = { s.xlat with waiting := s.xlat.waiting ++ [⟨p.index, [⟨rq.lane, rq.tag, false⟩]⟩] } := by
  obtain ⟨passes, unit⟩ := looked_one (rq := rq) miss
  rw [joined_of_new _ (holder_eq_none.2 unheld) unlisted] at unit
  rw [accept_xlat_of_idle fresh decoded passes (by rw [unit]; exact .inr busy), unit]

/-- A walk slot is FREE, and nothing waits. -/
theorem accept_taken {w : WalkNo} (empty : s.xlat.waiting = []) (unheld : ∀ v, ¬s.xlat.holds p.index v = true)
    (free : s.walk w = none) (lowest : ∀ v, v < w → s.walk v ≠ none) :
    (accept rq s).xlat = { s.xlat with
      walks := s.xlat.walks.set w (some ⟨false, p.index, [⟨rq.lane, rq.tag, false⟩], false, s.xlat.nextAge⟩)
      nextAge := s.xlat.nextAge + 1 } := by
  obtain ⟨passes, unit⟩ := looked_one (rq := rq) miss
  rw [joined_of_new _ (holder_eq_none.2 unheld) (by rw [empty]; exact nofun), empty, List.nil_append] at unit
  rw [accept_xlat_of_one (w := w) fresh decoded passes (by rw [unit]; exact free) (by rw [unit]; exact lowest)
    (congrArg Translation.waiting unit), unit]
  simp only [Translation.nextIndex, empty]

end

/-- Two missing pieces take the two FREE walk slots. -/
theorem accept_two {rq : Request} {c : Capture} {p q : Piece} {s : State}
    (fresh : ∀ q ∈ (s.lane rq.lane).slots, q.tag ≠ rq.tag) (decoded : s.decode rq = .translated c [p, q])
    (lower : s.lookUp p.index = .miss) (upper : s.lookUp q.index = .miss) (free : ∀ w, s.walk w = none)
    (empty : s.xlat.waiting = []) :
    (accept rq s).walk 0 = some ⟨false, p.index, [⟨rq.lane, rq.tag, false⟩], false, s.xlat.nextAge⟩
      ∧ (accept rq s).walk 1 = some ⟨false, q.index, [⟨rq.lane, rq.tag, true⟩], false, s.xlat.nextAge + 1⟩
      ∧ (accept rq s).xlat.waiting = [] := by
  have consecutive : q.index = p.index + 1 := by
    rcases decode_pieces decoded with ⟨a, one⟩ | ⟨a, b, two, next⟩
    · cases one
    · cases two
      exact next
  have unheld : ∀ (x : Translation) index, x.walks = s.xlat.walks → x.holder index = none := fun x index walks =>
    holder_eq_none.2 fun w held => by
      obtain ⟨y, walk, _⟩ := holds_iff.1 held
      rw [walks] at walk
      exact Option.some_ne_none y (walk.symm.trans (free w))
  obtain ⟨passes, unit⟩ := looked_two (rq := rq) lower upper
  rw [joined_of_new (index := p.index) _ (unheld _ _ rfl) (by rw [empty]; exact nofun), empty, List.nil_append,
    joined_of_new (x := { s.xlat with waiting := [⟨p.index, [⟨rq.lane, rq.tag, false⟩]⟩] }) (index := q.index) _
      (unheld _ _ rfl) (by simp [consecutive])] at unit
  have taken := accept_xlat_of_two fresh decoded passes (by rw [unit]; exact free) (congrArg Translation.waiting unit)
  rw [unit] at taken
  exact taken

/-! ### The statement's words -/

/-- A READ or WRITE parcel as one request. -/
theorem exec_request (write : Bool) (lane : Byte) (tag : Tag) (number : Byte) (address : BitVec 32) (length : BitVec 16)
    (data : List Byte) (s : State) :
    (if write then exec (.write lane tag number address length data) s else exec (.read lane tag number address length) s) =
      .next (requestArrives ⟨laneOf lane, tag, number, if write then .write else .read, address, length.toNat,
        if write then data else []⟩ s) := by
  cases write <;> rfl

theorem permits_ite (e : CacheEntry) (write : Bool) :
    e.permits (if write then .write else .read) = if write then e.writable else e.readable := by
  cases write <;> rfl

theorem dir_ite_eq_write {write : Bool} : (if write then Dir.write else .read) = .write ↔ write = true := by
  cases write <;> simp

/-- The slot of a request whose lookups fail no piece. -/
theorem queuedIfDone_slotOf (s : State) (rq : Request) (c : Capture) (ps : List Piece) :
    (s.slotOf rq (.translated c ps)).queuedIfDone =
      ⟨rq.tag, (s.lane rq.lane).number, rq.dir, rq.address, rq.length, some c, ps,
        if ps.all (fun p => p.xlat == .done) then .queued else .translating, none,
        (s.unitsGiven rq).map fun u => ⟨u, true⟩⟩ := by
  rw [slotOf_eq]
  unfold Slot.queuedIfDone newSlot
  dsimp only
  cases ps.all fun p => p.xlat == .done <;> rfl

theorem looked_eq (s : State) (rq : Request) (p : Piece) (position : Nat) : s.looked rq p position =
    if s.portRow.entryCount ≤ p.index then ({ p with xlat := .failed }, some .translationFault, [rq.names .tableRange])
    else match s.xlat.cache.find? fun e => e.index == p.index with
      | none => (p, none, [])
      | some e =>
        if e.permits rq.dir then ({ p with xlat := .done, address := some (frameAddress e.frame position) }, none, [])
        else ({ p with xlat := .failed }, some .denied,
          [{ rq.names .entryDenied with mem := some (frameAddress e.frame position) }]) := by
  unfold State.looked State.lookUp
  by_cases beyond : s.portRow.entryCount ≤ p.index
  · rw [if_pos beyond, if_pos beyond]
  · rw [if_neg beyond, if_neg beyond]
    cases s.xlat.cache.find? fun e => e.index == p.index <;> rfl

end Sys2Proof.Machine

open Sys2Proof Sys2Proof.Machine in
/-- Settles O39: acceptance looks up each piece; a hit, a miss and a failure leave the slot, the walks and the lane as R71 to R76
say. -/
theorem lookupHitsMissesOrFails : Obligations.LookupHitsMissesOrFails := by
  intro write lane tag number address length data s c ps l r n dir a area need units run named looked results pieces failure
    slot free granted ref entry misses holds bothBusy ok payload decoded
  let rq : Request := ⟨l, tag, number, dir, address, n, if write then data else []⟩
  have fresh : ∀ q ∈ (s.lane rq.lane).slots, q.tag ≠ rq.tag := ok.tagFree
  have decoded : s.decode rq = .translated c ps := decoded
  have isWrite : rq.dir = .write ↔ write = true := dir_ite_eq_write
  have needs : rq.needs = need := if_congr isWrite rfl rfl
  have given : s.unitsGiven rq = units := if_congr isWrite rfl rfl
  have supplies : s.Supplies rq := {
    read := fun h => if_neg fun written => Dir.noConfusion (h.symm.trans (isWrite.2 written))
    write := fun h => by
      obtain ⟨same, _, space⟩ := payload (isWrite.1 h)
      rw [← needs, ← given, needs_of_write h, unitsGiven_of_write s h] at space
      exact ⟨(congrArg List.length (if_pos (isWrite.1 h))).trans same, space⟩ }
  have ran : run = .next (accept rq s) := (exec_request write lane tag number address length data s).trans
    (congrArg Host.Outcome.next (requestArrives_of_passes ok.up ok.noClaim
      (State.accepting.passes (rq := rq) ok rfl (fun h => (supplies.write h).1) fun h => by
        have covers := (payload (isWrite.1 h)).2.1
        rw [← needs, needs_of_write h] at covers
        exact covers)))
  have permits : ∀ e : CacheEntry, e.permits rq.dir = if write then e.writable else e.readable := fun e => permits_ite e write
  have results_eq : results = s.lookedAll rq ps := List.map_congr_left fun x _ => by
    rw [looked_eq]
    simp only [permits]
    rfl
  have pieces_eq : pieces = s.lookedPieces rq ps := congrArg (List.map _) results_eq
  have failure_eq : failure = s.lookedFailure rq ps := congrArg (fun rs => (List.filterMap _ rs).head?) results_eq
  have reports_eq : results.flatMap (·.2.2) = s.lookedReports rq ps := congrArg (List.flatMap _) results_eq
  have miss : ∀ p, misses p → s.lookUp p.index = .miss := fun p h => lookUp_eq_miss h.1 h.2
  refine ⟨⟨_, ran, ?_⟩, fun p one missing idle => ⟨fun w x walk own lowest => ⟨_, ran, ?_⟩,
      fun unheld busy before x after waiting own others => ⟨_, ran, ?_⟩, fun unheld busy unlisted => ⟨_, ran, ?_⟩,
      fun w unheld free lowest => ⟨_, ran, ?_⟩⟩, fun p q two lower upper free empty => ⟨_, ran, ?_⟩⟩
  · have slot_eq : slot = ⟨tag, r.number, dir, address, n, some c, pieces,
        if failure.isSome then .complete else if pieces.all (fun p => p.xlat == .done) then .queued else .translating,
        failure, if failure.isSome then [] else units.map fun u => ⟨u, true⟩⟩ := rfl
    rw [reports_eq, slot_eq, pieces_eq, failure_eq, ← given]
    cases outcome : s.lookedFailure rq ps with
    | none =>
      have done := accept_enlistedAs supplies fresh decoded outcome
      rw [queuedIfDone_slotOf] at done
      have own := done.lane
      have counted := done.area
      rw [needs] at own counted
      refine ⟨congrArg LaneState.slots own, accept_cache_of_looked fresh decoded outcome, ?_,
        fun _ => ⟨own, counted, done.areas, done.placed, fun k p piece missing =>
          accept_awaits fresh decoded outcome piece (miss p missing)⟩, (nomatch ·), done.others, done.port, done.classes,
        done.link, done.mgmt⟩
      rw [lookedReports_eq_nil outcome]
      exact done.faults
    | some st =>
      obtain ⟨done, cache, faults, unwaited⟩ := accept_of_failed fresh decoded supplies ok.active outcome
      have grants : s.grantsAfter rq ↔ granted := by
        unfold State.grantsAfter State.freeAfter
        rw [needs]
        exact and_congr isWrite Iff.rfl
      have free_eq : s.freeAfter rq = free := by
        unfold State.freeAfter
        rw [needs]
      have regranted := done.granted
      have kept := done.ungranted
      rw [grants, needs, free_eq] at regranted
      rw [grants, needs] at kept
      exact ⟨done.slots, cache, faults, (nomatch ·), fun _ => ⟨done.stream.1, done.stream.2, regranted, kept, done.areas,
        done.dropped, unwaited⟩, done.others, done.port, done.classes, done.link, done.mgmt⟩
  · subst one
    exact accept_held fresh decoded (miss p missing) idle walk own fun v hv => mt holds_iff.1 (lowest v hv)
  · subst one
    exact accept_listed fresh decoded (miss p missing) busy (fun v => mt holds_iff.1 (unheld v)) waiting own others
  · subst one
    exact accept_new fresh decoded (miss p missing) busy (fun v => mt holds_iff.1 (unheld v)) unlisted
  · subst one
    exact accept_taken fresh decoded (miss p missing) (idle.resolve_right fun busy => busy w free)
      (fun v => mt holds_iff.1 (unheld v)) free lowest
  · subst two
    exact accept_two fresh decoded (miss p lower) (miss q upper) free empty
end
